-- ==== Sys2Proof/Word.lean ====
section
/-! DEFINITION. The machine's word types (spec 00_scope.md R6, 10_state.md): all values are unsigned. -/

namespace Sys2Proof

/-- An 8-bit value: a general register, a timer, a memory cell (R10, R18, R19, R21). -/
abbrev Byte := BitVec 8

/-- A 16-bit value: an instruction word (R60), the program counter and a stack slot (R13, R16; decision D3). -/
abbrev Word := BitVec 16

/-- A 12-bit value: the index register and the `addr` field (R12, R61). -/
abbrev Addr := BitVec 12

/-- A 4-bit field used as a count, `n` of `dxyn` (R61, R62). -/
abbrev Nibble := BitVec 4

/-- The number of a general register: a 4-bit field, so every value is in range (R10). -/
abbrev Reg := Fin 16

/-- An instant or an interval of the injectable clock: "time values are non-negative rationals in milliseconds" (R186; R20). -/
@[ext] structure Time where
  ms : Rat
  nonneg : 0 ≤ ms
  deriving DecidableEq, Repr

end Sys2Proof
end

