-- ==== Sys2Proof/Config.lean ====
section
/-! DEFINITION. What an implementation fixes: the constants and the parameters of spec 00_scope.md rule R5, and the
free values (constants without a body, so that no proof can see what they are). -/

namespace Sys2Proof

/-- `ODD_PC_POLICY` (R5; 92 D4): what a fetch at an odd program counter does. -/
inductive OddPcPolicy where
  /-- Hard fault `MisalignedFetch` (the default). -/
  | fault
  /-- Fetch the two bytes as usual (what the reference does). -/
  | execute
  deriving DecidableEq, Repr

/-- `SHIFT_SRC` (R5; 92 D14): the register that `8xy6` and `8xyE` shift. -/
inductive ShiftSrc where
  /-- `V[x]`, in place; `y` is ignored (the default). -/
  | x
  /-- `V[y]`. -/
  | y
  deriving DecidableEq, Repr

/-- `VF_ORDER` (R5; 92 D13): which write lands last on a flag-writing form whose destination is `VF`. -/
inductive VfOrder where
  /-- The flag (the default). -/
  | flagLast
  /-- The result. -/
  | resultLast
  deriving DecidableEq, Repr

/-- `RAND` (R5, R113; 92 D7): the source of the byte that `cxnn` draws. -/
inductive RandSource where
  /-- A free draw of 8 bits per execution (the default). -/
  | draw
  /-- A constant; the reference configuration is the constant 0x2A. -/
  | const (b : Byte)
  deriving DecidableEq, Repr

/-- The parameters that the spec marks "default" and that a step or a HOST operation reads (R5). The other
parameters of R5 are the constants below (`MEM_SIZE` and the like), `FONT` (an argument of `load`, R47),
`PC_WIDTH` (the width of `Word`, R15) and `OOB_POLICY` (its only value with rules is `fault`, 92 D1). -/
structure Params where
  /-- `STACK_CAPACITY`: call-stack slots (R16; 92 D6). -/
  stackCapacity : Nat
  /-- `CADENCE`: the timer interval in milliseconds (R187; 92 D22). -/
  cadence : Time
  /-- `RAND`. -/
  rand : RandSource
  /-- `ODD_PC_POLICY`. -/
  oddPc : OddPcPolicy
  /-- `SHIFT_SRC`. -/
  shiftSrc : ShiftSrc
  /-- `VF_ORDER`. -/
  vfOrder : VfOrder
  /-- `ST_AGES`: the sound timer counts down (R187; 90 C1; 92 D9). -/
  stAges : Bool
  /-- `SPRITE_MSB_LEFT`: bit 7 of a sprite byte is its leftmost pixel (R142; 92 D12). -/
  spriteMsbLeft : Bool
  deriving DecidableEq, Repr

namespace Config

/-- `MEM_SIZE` (R5). -/
abbrev memSize : Nat := 4096
/-- `FONT_BASE` (R5). -/
abbrev fontBase : Nat := 0
/-- `GLYPH_HEIGHT` (R5). -/
abbrev glyphHeight : Nat := 5
/-- The bytes of the font: `GLYPH_COUNT` = 16 glyphs of `GLYPH_HEIGHT` bytes (R5, R47). -/
abbrev fontSize : Nat := 80
/-- `PROGRAM_BASE`: the load address and the reset value of `PC` (R5, R200). -/
abbrev programBase : Nat := 0x200
/-- `PROGRAM_MAX`: the largest image that `load` accepts, 4096 - 0x200 bytes (R5, R203). -/
abbrev programMax : Nat := 3584
/-- `DISP_W` (R5). -/
abbrev dispW : Nat := 64
/-- `DISP_H` (R5). -/
abbrev dispH : Nat := 32
/-- `KEY_COUNT` (R5). -/
abbrev keyCount : Nat := 16

/-- FREE VALUE (R113; 92 D7; log entry 3). The byte of the k-th draw of `RandByte()` since `load` (log entry 22): any value 0x00..0xFF, under no
law. -/
opaque randByte : Nat → Byte

/-- FREE VALUE (R170; log entry 4). Which of several out-of-bounds pixels an `OobDisplay` fault records: R141
says that one exists and not which one is recorded. -/
opaque oobPixelIndex : Nat → Nat

end Config

end Sys2Proof
end

