-- ==== Sys2Proof/Syntax.lean ====
section
/-! DEFINITION. The instruction set: one constructor per row of spec/opcode_table.json (30_encoding.md rule R65), in
the table's order. Operand fields have exactly the widths of rule R61. -/

namespace Sys2Proof

/-- The 34 defined instructions (R65; 90 C6). -/
inductive Instr where
  /-- `00E0` CLS: clear the display (R140). -/
  | cls
  /-- `00EE` RET: return (R80). -/
  | ret
  /-- `1nnn` JP addr (R81). -/
  | jp (addr : Addr)
  /-- `2nnn` CALL addr (R82). -/
  | call (addr : Addr)
  /-- `3xnn` SE Vx, nn (R83). -/
  | seImm (x : Reg) (nn : Byte)
  /-- `4xnn` SNE Vx, nn (R84). -/
  | sneImm (x : Reg) (nn : Byte)
  /-- `5xy0` SE Vx, Vy (R85). -/
  | seReg (x y : Reg)
  /-- `6xnn` LD Vx, nn (R100). -/
  | ldImm (x : Reg) (nn : Byte)
  /-- `7xnn` ADD Vx, nn (R101). -/
  | addImm (x : Reg) (nn : Byte)
  /-- `8xy0` LD Vx, Vy (R102). -/
  | ldReg (x y : Reg)
  /-- `8xy1` OR Vx, Vy (R103). -/
  | orReg (x y : Reg)
  /-- `8xy2` AND Vx, Vy (R104). -/
  | andReg (x y : Reg)
  /-- `8xy3` XOR Vx, Vy (R105). -/
  | xorReg (x y : Reg)
  /-- `8xy4` ADD Vx, Vy (R106). -/
  | addReg (x y : Reg)
  /-- `8xy5` SUB Vx, Vy (R107). -/
  | sub (x y : Reg)
  /-- `8xy6` SHR Vx (R108); `y` is read only under `SHIFT_SRC = Y`. -/
  | shr (x y : Reg)
  /-- `8xy7` SUBN Vx, Vy (R109). -/
  | subn (x y : Reg)
  /-- `8xyE` SHL Vx (R110); `y` is read only under `SHIFT_SRC = Y`. -/
  | shl (x y : Reg)
  /-- `9xy0` SNE Vx, Vy (R86). -/
  | sneReg (x y : Reg)
  /-- `annn` LD I, addr (R120). -/
  | ldI (addr : Addr)
  /-- `bnnn` JP V0, addr (R87). -/
  | jpV0 (addr : Addr)
  /-- `cxnn` RND Vx, nn (R113). -/
  | rnd (x : Reg) (nn : Byte)
  /-- `dxyn` DRW Vx, Vy, n (R141). -/
  | drw (x y : Reg) (n : Nibble)
  /-- `ex9e` SKP Vx (R150). -/
  | skp (x : Reg)
  /-- `exa1` SKNP Vx (R151). -/
  | sknp (x : Reg)
  /-- `fx07` LD Vx, DT (R154). -/
  | ldVxDt (x : Reg)
  /-- `fx0a` LD Vx, K (R152). -/
  | waitKey (x : Reg)
  /-- `fx15` LD DT, Vx (R155). -/
  | ldDtVx (x : Reg)
  /-- `fx18` LD ST, Vx (R156). -/
  | ldStVx (x : Reg)
  /-- `fx1e` ADD I, Vx (R121). -/
  | addI (x : Reg)
  /-- `fx29` LD F, Vx (R122). -/
  | ldFont (x : Reg)
  /-- `fx33` LD B, Vx (R123). -/
  | bcd (x : Reg)
  /-- `fx55` LD [I], Vx (R124). -/
  | storeRegs (x : Reg)
  /-- `fx65` LD Vx, [I] (R125). -/
  | loadRegs (x : Reg)
  deriving DecidableEq, Repr

end Sys2Proof
end

