-- ==== Sys2Proof/WellFormed.lean ====
section
/-! DEFINITION. Well-formedness: of an instruction, of a program image handed to `load` (70_reset_and_hazards.md rules
R202, R203) and of the parameters (00_scope.md rule R5). -/

namespace Sys2Proof

/-- Every operand lies in the range its field admits (R61). The types of `Instr` already say so (a register number
is a `Fin 16`, an immediate a bit vector of its field's width; R10: "every index is in range"), so the check
refuses nothing: no ill-formed instruction can be written. It is kept so that a widened operand type
would be caught here. -/
def Instr.wellFormed : Instr → Bool
  | .cls | .ret => true
  | .jp a | .call a | .ldI a | .jpV0 a => decide (a.toNat < 4096)
  | .seImm x nn | .sneImm x nn | .ldImm x nn | .addImm x nn | .rnd x nn =>
      decide (x.val < 16) && decide (nn.toNat < 256)
  | .seReg x y | .ldReg x y | .orReg x y | .andReg x y | .xorReg x y | .addReg x y | .sub x y
  | .shr x y | .subn x y | .shl x y | .sneReg x y => decide (x.val < 16) && decide (y.val < 16)
  | .drw x y n => decide (x.val < 16) && decide (y.val < 16) && decide (n.toNat < 16)
  | .skp x | .sknp x | .ldVxDt x | .waitKey x | .ldDtVx x | .ldStVx x | .addI x | .ldFont x
  | .bcd x | .storeRegs x | .loadRegs x => decide (x.val < 16)

/-- The length check of `load`: an image has an even number of bytes ("instructions are always two bytes", R202). -/
def imageEven (image : List Byte) : Bool := image.length % 2 == 0

/-- The size check of `load`: an image fits between 0x200 and 0xFFF (R203; 92 D17). -/
def imageFits (image : List Byte) : Bool := decide (image.length ≤ Config.programMax)

/-- A program image that `load` accepts (R202, R203): "a model takes `len` even and `len <= 3584` as launch premises". -/
def imageOk (image : List Byte) : Bool := imageEven image && imageFits image

/-- The parameters make sense: there is a stack and the timer interval is a positive time (R5). -/
def Params.wellFormed (p : Params) : Bool := decide (0 < p.stackCapacity) && decide (0 < p.cadence.ms)

end Sys2Proof
end

