-- ==== Sys2Proof/Decode.lean ====
section
/-! DEFINITION. Decoding and encoding (30_encoding.md rules R60 to R70): the fields of rule R61, a decoder that is
total on any word and on any bytes, the encoder written from the six formats of R61, and the masks and
patterns of the opcode map R65. -/

namespace Sys2Proof

/-! ### The fields of an instruction word (R61) -/

/-- `op = w[15:12]`, the family selector. -/
def opField (w : Word) : Nibble := w.extractLsb' 12 4
/-- `x = w[11:8]`, a register number. -/
def xField (w : Word) : Reg := (w.extractLsb' 8 4).toFin
/-- `y = w[7:4]`, a register number. -/
def yField (w : Word) : Reg := (w.extractLsb' 4 4).toFin
/-- `n = w[3:0]`, a count or a sub-opcode. -/
def nField (w : Word) : Nibble := w.extractLsb' 0 4
/-- `nn = w[7:0]`, an immediate or a sub-opcode. -/
def nnField (w : Word) : Byte := w.extractLsb' 0 8
/-- `addr = w[11:0]`. -/
def addrField (w : Word) : Addr := w.extractLsb' 0 12

/-! ### The decoder (R65) -/

/-- Family 0: the whole word is matched (R65; 92 D16); every other `0nnn` is unsupported (R67). -/
def decode0 (w : Word) : Option Instr :=
  if w = 0x00E0#16 then some .cls
  else if w = 0x00EE#16 then some .ret
  else none

/-- Family 8: the low nibble selects one of the nine forms (R65). -/
def decode8 (x y : Reg) (n : Nibble) : Option Instr :=
  match n.toNat with
  | 0x0 => some (.ldReg x y)
  | 0x1 => some (.orReg x y)
  | 0x2 => some (.andReg x y)
  | 0x3 => some (.xorReg x y)
  | 0x4 => some (.addReg x y)
  | 0x5 => some (.sub x y)
  | 0x6 => some (.shr x y)
  | 0x7 => some (.subn x y)
  | 0xE => some (.shl x y)
  | _ => none

/-- Family E: the low byte selects (R65; 92 D16). -/
def decodeE (x : Reg) (nn : Byte) : Option Instr :=
  match nn.toNat with
  | 0x9E => some (.skp x)
  | 0xA1 => some (.sknp x)
  | _ => none

/-- Family F: the low byte selects (R65; 92 D16). -/
def decodeF (x : Reg) (nn : Byte) : Option Instr :=
  match nn.toNat with
  | 0x07 => some (.ldVxDt x)
  | 0x0A => some (.waitKey x)
  | 0x15 => some (.ldDtVx x)
  | 0x18 => some (.ldStVx x)
  | 0x1E => some (.addI x)
  | 0x29 => some (.ldFont x)
  | 0x33 => some (.bcd x)
  | 0x55 => some (.storeRegs x)
  | 0x65 => some (.loadRegs x)
  | _ => none

/-- The instruction that a word encodes; `none` is an unsupported opcode (R65, R67, R70: decoding is total and never
faults or refuses). -/
def decode (w : Word) : Option Instr :=
  match (opField w).toNat with
  | 0x0 => decode0 w
  | 0x1 => some (.jp (addrField w))
  | 0x2 => some (.call (addrField w))
  | 0x3 => some (.seImm (xField w) (nnField w))
  | 0x4 => some (.sneImm (xField w) (nnField w))
  | 0x5 => if nField w = 0#4 then some (.seReg (xField w) (yField w)) else none
  | 0x6 => some (.ldImm (xField w) (nnField w))
  | 0x7 => some (.addImm (xField w) (nnField w))
  | 0x8 => decode8 (xField w) (yField w) (nField w)
  | 0x9 => if nField w = 0#4 then some (.sneReg (xField w) (yField w)) else none
  | 0xA => some (.ldI (addrField w))
  | 0xB => some (.jpV0 (addrField w))
  | 0xC => some (.rnd (xField w) (nnField w))
  | 0xD => some (.drw (xField w) (yField w) (nField w))
  | 0xE => decodeE (xField w) (nnField w)
  | _ => decodeF (xField w) (nnField w)

/-- Why bytes are not an instruction. -/
inductive DecodeError where
  /-- Fewer than two bytes are left (R60: every instruction is exactly two bytes). -/
  | truncated
  /-- The word matches no row of the opcode map (R67). -/
  | unsupportedOpcode (w : Word)
  deriving DecidableEq, Repr

/-- The instruction word of two bytes: big-endian, the byte at the lower address is `w[15:8]` (R42). -/
def wordOfBytes (hi lo : Byte) : Word := hi ++ lo

/-- The byte of a word that lies at the lower address (R42). -/
def highByte (w : Word) : Byte := w.extractLsb' 8 8

/-- The byte of a word that lies at the higher address (R42). -/
def lowByte (w : Word) : Byte := w.extractLsb' 0 8

/-- Decode the first instruction of a list of bytes and give the rest of the list. -/
def decodeBytes : List Byte → Except DecodeError (Instr × List Byte)
  | hi :: lo :: rest =>
      match decode (wordOfBytes hi lo) with
      | some i => .ok (i, rest)
      | none => .error (.unsupportedOpcode (wordOfBytes hi lo))
  | _ => .error .truncated

/-! ### The encoder (R61: the six formats) -/

/-- Format ADDR: `op addr addr addr`. -/
def encAddr (op : Nibble) (addr : Addr) : Word := op ++ addr
/-- Format XNN: `op x nn nn`. -/
def encXNN (op : Nibble) (x : Reg) (nn : Byte) : Word := op ++ (BitVec.ofFin x ++ nn : Addr)
/-- Format XY and format XYN: `op x y n`. -/
def encXYN (op : Nibble) (x y : Reg) (n : Nibble) : Word :=
  op ++ (BitVec.ofFin x ++ (BitVec.ofFin y ++ n : Byte) : Addr)

/-- The word of an instruction (R65). Formats FIXED and X are the constant word and XNN with a constant low byte. -/
def encode : Instr → Word
  | .cls => 0x00E0#16
  | .ret => 0x00EE#16
  | .jp a => encAddr 0x1 a
  | .call a => encAddr 0x2 a
  | .seImm x nn => encXNN 0x3 x nn
  | .sneImm x nn => encXNN 0x4 x nn
  | .seReg x y => encXYN 0x5 x y 0x0
  | .ldImm x nn => encXNN 0x6 x nn
  | .addImm x nn => encXNN 0x7 x nn
  | .ldReg x y => encXYN 0x8 x y 0x0
  | .orReg x y => encXYN 0x8 x y 0x1
  | .andReg x y => encXYN 0x8 x y 0x2
  | .xorReg x y => encXYN 0x8 x y 0x3
  | .addReg x y => encXYN 0x8 x y 0x4
  | .sub x y => encXYN 0x8 x y 0x5
  | .shr x y => encXYN 0x8 x y 0x6
  | .subn x y => encXYN 0x8 x y 0x7
  | .shl x y => encXYN 0x8 x y 0xE
  | .sneReg x y => encXYN 0x9 x y 0x0
  | .ldI a => encAddr 0xA a
  | .jpV0 a => encAddr 0xB a
  | .rnd x nn => encXNN 0xC x nn
  | .drw x y n => encXYN 0xD x y n
  | .skp x => encXNN 0xE x 0x9E
  | .sknp x => encXNN 0xE x 0xA1
  | .ldVxDt x => encXNN 0xF x 0x07
  | .waitKey x => encXNN 0xF x 0x0A
  | .ldDtVx x => encXNN 0xF x 0x15
  | .ldStVx x => encXNN 0xF x 0x18
  | .addI x => encXNN 0xF x 0x1E
  | .ldFont x => encXNN 0xF x 0x29
  | .bcd x => encXNN 0xF x 0x33
  | .storeRegs x => encXNN 0xF x 0x55
  | .loadRegs x => encXNN 0xF x 0x65

/-- The two bytes of an instruction as memory holds them (R42, R43). -/
def encodeBytes (i : Instr) : List Byte := [highByte (encode i), lowByte (encode i)]

/-! ### The opcode map as data (R65) -/

/-- A row's `mask` and `match` columns: a word is the row's instruction when its masked bits are the pattern. -/
structure OpcodeRow where
  mask : Word
  pattern : Word
  deriving DecidableEq, Repr

/-- The row of the opcode map that an instruction belongs to (R65). -/
def Instr.row : Instr → OpcodeRow
  | .cls => ⟨0xFFFF, 0x00E0⟩
  | .ret => ⟨0xFFFF, 0x00EE⟩
  | .jp _ => ⟨0xF000, 0x1000⟩
  | .call _ => ⟨0xF000, 0x2000⟩
  | .seImm _ _ => ⟨0xF000, 0x3000⟩
  | .sneImm _ _ => ⟨0xF000, 0x4000⟩
  | .seReg _ _ => ⟨0xF00F, 0x5000⟩
  | .ldImm _ _ => ⟨0xF000, 0x6000⟩
  | .addImm _ _ => ⟨0xF000, 0x7000⟩
  | .ldReg _ _ => ⟨0xF00F, 0x8000⟩
  | .orReg _ _ => ⟨0xF00F, 0x8001⟩
  | .andReg _ _ => ⟨0xF00F, 0x8002⟩
  | .xorReg _ _ => ⟨0xF00F, 0x8003⟩
  | .addReg _ _ => ⟨0xF00F, 0x8004⟩
  | .sub _ _ => ⟨0xF00F, 0x8005⟩
  | .shr _ _ => ⟨0xF00F, 0x8006⟩
  | .subn _ _ => ⟨0xF00F, 0x8007⟩
  | .shl _ _ => ⟨0xF00F, 0x800E⟩
  | .sneReg _ _ => ⟨0xF00F, 0x9000⟩
  | .ldI _ => ⟨0xF000, 0xA000⟩
  | .jpV0 _ => ⟨0xF000, 0xB000⟩
  | .rnd _ _ => ⟨0xF000, 0xC000⟩
  | .drw _ _ _ => ⟨0xF000, 0xD000⟩
  | .skp _ => ⟨0xF0FF, 0xE09E⟩
  | .sknp _ => ⟨0xF0FF, 0xE0A1⟩
  | .ldVxDt _ => ⟨0xF0FF, 0xF007⟩
  | .waitKey _ => ⟨0xF0FF, 0xF00A⟩
  | .ldDtVx _ => ⟨0xF0FF, 0xF015⟩
  | .ldStVx _ => ⟨0xF0FF, 0xF018⟩
  | .addI _ => ⟨0xF0FF, 0xF01E⟩
  | .ldFont _ => ⟨0xF0FF, 0xF029⟩
  | .bcd _ => ⟨0xF0FF, 0xF033⟩
  | .storeRegs _ => ⟨0xF0FF, 0xF055⟩
  | .loadRegs _ => ⟨0xF0FF, 0xF065⟩

/-! ### The host's view of a table word -/

/-- The instruction read from a table word: its `nbits` low bits, the bits above them zero, laid out as the machine
stores them (the high byte first, R42) and given to the decoder. -/
def decodeTableWord (nbits w : Nat) : Option Instr :=
  let word : Word := BitVec.ofNat 16 (w % 2 ^ nbits)
  match decodeBytes [highByte word, lowByte word] with
  | .ok (i, _) => some i
  | .error _ => none

end Sys2Proof
end

