-- ==== Sys2Proof/Machine/Defaults.lean ====
section
/-! DEFINITION. The default setting of the parameters (00_scope.md rule R5) and the default font (20_memory.md rule R47). -/

namespace Sys2Proof.Machine

/-- `num / den` milliseconds; none when `den` is 0. -/
def millis (num den : Nat) : Time where
  ms := (num : Rat) / (den : Rat)
  nonneg := by positivity

/-- The origin of the injectable clock, whose epoch is open (R186; log entry 5). -/
def clockOrigin : Time where
  ms := 0
  nonneg := le_refl 0

/-- The default `CADENCE`, 1000/60 milliseconds in lowest terms (R5; 92 D22). -/
def defaultCadence : Time where
  ms := { num := 50, den := 3 }
  nonneg := by decide

/-- The default of every parameter: "the default is what this spec's rules, vectors and programs use" (R5). -/
def defaultParams : Params where
  stackCapacity := 24
  cadence := defaultCadence
  rand := .draw
  oddPc := .fault
  shiftSrc := .x
  vfOrder := .flagLast
  stAges := true
  spriteMsbLeft := true

/-- The default `FONT`, glyphs 0 to F, five bytes each (R47; 92 D11: from general knowledge, not in the source). -/
def defaultFont : Vector Byte Config.fontSize :=
  #v[0xF0, 0x90, 0x90, 0x90, 0xF0,
     0x20, 0x60, 0x20, 0x20, 0x70,
     0xF0, 0x10, 0xF0, 0x80, 0xF0,
     0xF0, 0x10, 0xF0, 0x10, 0xF0,
     0x90, 0x90, 0xF0, 0x10, 0x10,
     0xF0, 0x80, 0xF0, 0x10, 0xF0,
     0xF0, 0x80, 0xF0, 0x90, 0xF0,
     0xF0, 0x10, 0x20, 0x40, 0x40,
     0xF0, 0x90, 0xF0, 0x90, 0xF0,
     0xF0, 0x90, 0xF0, 0x10, 0xF0,
     0xF0, 0x90, 0xF0, 0x90, 0x90,
     0xE0, 0x90, 0xE0, 0x90, 0xE0,
     0xF0, 0x80, 0x80, 0x80, 0xF0,
     0xE0, 0x90, 0x90, 0x90, 0xE0,
     0xF0, 0x80, 0xF0, 0x80, 0xF0,
     0xF0, 0x80, 0xF0, 0x80, 0x80]

end Sys2Proof.Machine
end

