-- ==== Sys2Proof/Machine/State.lean ====
section
/-! DEFINITION. The Machine State (10_state.md rules R10 to R31) as plain data, the reasons a step can stop, and the
state right after `load` of an empty image with the default font. -/

namespace Sys2Proof.Machine

/-- The contents of `MEM` (R21): the cells that differ from the reset contents, in strictly rising address order. An
address that is not listed reads as `Memory.unlisted` says (Machine/Memory.lean). -/
abbrev Memory := List Host.Cell

/-- The Display Buffer `DISP` (R22): 32 rows; pixel (row r, column c) is bit number c of row r. -/
abbrev Display := Vector (BitVec Config.dispW) Config.dispH

/-- The Input Latch `KEYS` (R23): `true` means pressed. -/
abbrev Keys := Vector Bool Config.keyCount

/-- The three recovered errors (R170, R172). -/
inductive RecoveredError where
  | unsupportedOpcode
  | stackOverflow
  | stackUnderflow
  deriving DecidableEq, Repr

/-- One record on the observer interface: "the error name, the instruction word `w` and the address `pc0` it was
fetched from" (R175; 92 D19). -/
structure Report where
  error : RecoveredError
  word : Word
  pc0 : Word
  deriving DecidableEq, Repr

/-- One thing that HOST does between two steps (R8, R185). `load` is not among them: it makes a new Machine State
(R204) and stands in Machine/HostOps.lean. -/
inductive HostOp where
  /-- `set_inputs(k)` (R188). -/
  | setInputs (keys : Keys)
  /-- Time passes: the injectable clock moves on by `num / den` milliseconds, never back (R186). -/
  | advanceClock (num den : Nat)
  /-- `age_timers()` (R187). -/
  | ageTimers
  /-- `display()`, a snapshot for rendering (R190). -/
  | display
  deriving DecidableEq, Repr

/-- The Machine State. The fields from `params` on are the MODEL's own: the parameters of the step relation (R9), the
inputs a step reads (the clock, the random draws, what HOST does between steps) and the two outputs of
R27. `FAULT` (R26) is the third outcome of the step, as R26 allows, and not a field. -/
structure State where
  /-- The general registers `V[0]` .. `V[15]`; `V[15]` is `VF` (R10, R11). -/
  v : Vector Byte 16
  /-- The index register `I` (R12). -/
  i : Addr
  /-- The program counter `PC` (R13). -/
  pc : Word
  /-- The call stack `STACK[0 .. STACK_CAPACITY)`, slot 0 first (R16). -/
  stack : List Word
  /-- The stack pointer `SP`: the number of occupied slots (R17). -/
  sp : Nat
  /-- The delay timer `DT` (R18). -/
  dt : Byte
  /-- The sound timer `ST` (R19). -/
  st : Byte
  /-- The delay timer's aging reference instant `DT_REF` (R20). -/
  dtRef : Time
  /-- `MEM` (R21). -/
  mem : Memory
  /-- `DISP` (R22). -/
  disp : Display
  /-- `KEYS` (R23). -/
  keys : Keys
  /-- `BLOCKING`: a key wait is pending (R24). -/
  blocking : Bool
  /-- `TARGET`: the register the pending key wait will write (R25). -/
  target : Reg
  /-- The parameters of this machine (R5, R9); no step and no HOST operation between steps changes them (log entry 1), only
  a new `load` may bring others (log entry 21). -/
  params : Params
  /-- What `Now()` returns (R186). -/
  now : Time
  /-- How many random bytes have been drawn since `load` (R113; log entries 3 and 22). -/
  draws : Nat
  /-- What HOST does before the coming steps (R8): the head before the next step, and so on; nothing after its end. -/
  schedule : List (List HostOp)
  /-- The observer's stream, oldest record first (R175). -/
  reports : List Report
  /-- `display_changed`, the value that the last step returned (R66). -/
  displayChanged : Bool
  deriving DecidableEq, Repr

/-- The hard faults: the values of `FAULT` other than `none` (R26), each with the value that R170 records. A hard fault
ends the run (R177). Every one is SAFE: the model stops where the reference may go on (92 D1 to D5). -/
inductive Fault where
  /-- Raised by the fetch when `PC > 0xFFE` (R63). Safe. -/
  | oobFetch (pc : Word)
  /-- Raised by the fetch at an odd `PC` within memory, unless `ODD_PC_POLICY` is `execute` (R63). Safe. -/
  | misalignedFetch (pc : Word)
  /-- Raised by `fx33`, `fx55`, `fx65` and `dxyn` when the last byte address is above 0xFFF (R48). Safe. -/
  | oobMemory (addr : Nat)
  /-- Raised by `fx1e` when the sum is above 0xFFF (R121). Safe. -/
  | oobIndex (sum : Nat)
  /-- Raised by `dxyn` when a set sprite bit lands off the screen (R144). Safe. -/
  | oobDisplay (column row : Nat)
  /-- Raised by `ex9e` and `exa1` when the key number is above 15 (R150). Safe. -/
  | oobKey (k : Nat)
  deriving DecidableEq, Repr

/-- The reasons for having no meaning for an instruction. No instruction of this model is refused. -/
inductive Refusal where
  /-- Raised by an arm of `exec` whose instruction has no meaning yet; no arm does. Safe. -/
  | notModelled (mnemonic : String)
  deriving DecidableEq, Repr

/-- The state after `load` (R200, table of R28) with the default parameters and font, an empty image and the clock at 0:
a program is placed by `load` (Machine/HostOps.lean). -/
def State.reset : State where
  v := Vector.replicate 16 0x00
  i := 0x000
  pc := 0x200
  stack := List.replicate 24 0
  sp := 0
  dt := 0x00
  st := 0x00
  dtRef := clockOrigin
  mem := []
  disp := Vector.replicate Config.dispH 0
  keys := Vector.replicate Config.keyCount false
  blocking := false
  target := 0
  params := defaultParams
  now := clockOrigin
  draws := 0
  schedule := []
  reports := []
  displayChanged := false

end Sys2Proof.Machine
end

