-- ==== Sys2Proof/Machine/Memory.lean ====
section
/-! DEFINITION. `MEM` as a list of cells in canonical form, and its reads and writes (20_memory.md rules R40 to R54). -/

namespace Sys2Proof.Machine

/-- What an address that is not listed reads as: the reset contents of `MEM` with nothing loaded (R46): the default
font, else 0x00 (92 D10, D11). -/
def Memory.unlisted (a : Nat) : Byte :=
  if h : a < Config.fontSize then defaultFont[a] else 0x00

/-- The byte at an address. -/
def Memory.read (m : Memory) (a : Nat) : Byte :=
  match m with
  | [] => Memory.unlisted a
  | (b, u) :: rest => if a = b then u else Memory.read rest a

/-- Put a cell in front of a list of cells at higher addresses, unless it says what an unlisted address reads as. -/
def Memory.cons (a : Nat) (u : Byte) (m : Memory) : Memory :=
  if u = Memory.unlisted a then m else (a, u) :: m

/-- Replace or insert the cell of one address, keeping the canonical form. -/
def Memory.insert (m : Memory) (a : Nat) (u : Byte) : Memory :=
  match m with
  | [] => Memory.cons a u []
  | (b, w) :: rest =>
      if a < b then Memory.cons a u ((b, w) :: rest)
      else if a = b then Memory.cons a u rest
      else (b, w) :: Memory.insert rest a u

/-- Write one byte. An address outside `MEM` is never reached (R48: every range is checked first) and writes nothing. -/
def Memory.write (m : Memory) (a : Nat) (u : Byte) : Memory :=
  if a < Config.memSize then m.insert a u else m

/-- Write bytes at consecutive addresses in ascending order (R43). -/
def Memory.writeBytes (m : Memory) (a : Nat) : List Byte → Memory
  | [] => m
  | u :: us => Memory.writeBytes (m.write a u) (a + 1) us

/-- Read `n` bytes at consecutive addresses in ascending order (R43). -/
def Memory.readBytes (m : Memory) (a : Nat) : Nat → List Byte
  | 0 => []
  | n + 1 => m.read a :: m.readBytes (a + 1) n

/-- The canonical form from a lower bound on: addresses strictly rising and inside `MEM`, no cell equal to what its
address reads as unlisted. -/
def Memory.wfFrom (low : Nat) : Memory → Bool
  | [] => true
  | (a, u) :: rest =>
      decide (low ≤ a) && decide (a < Config.memSize) && decide (u ≠ Memory.unlisted a)
        && Memory.wfFrom (a + 1) rest

/-- The canonical form of a memory. -/
def Memory.wf (m : Memory) : Bool := Memory.wfFrom 0 m

/-- An access to `n` bytes from `a` is out of bounds: `n > 0` and its last byte is above 0xFFF (R48). -/
def rangeOob (a n : Nat) : Bool := decide (0 < n) && decide (0xFFF < a + n - 1)

end Sys2Proof.Machine
end

