-- ==== Sys2Proof/Machine/Operands.lean ====
section
/-! DEFINITION. What the instructions compute their operands and results from: values of registers and fields, with no
effect on the state (41_alu.md, 42_index_mem.md, 43_display.md, 44_keys_timers.md). Arithmetic is over
naturals and narrowed to the width of its destination at the end (00_scope.md rule R6). -/

namespace Sys2Proof.Machine

/-- Eight-bit addition, wrapping modulo 256 (R101, R106, R112). -/
def addBytes (a b : Byte) : Byte := BitVec.ofNat 8 (a.toNat + b.toNat)

/-- Eight-bit subtraction, wrapping modulo 256 (R107, R109, R112). -/
def subBytes (a b : Byte) : Byte :=
  if b.toNat ≤ a.toNat then BitVec.ofNat 8 (a.toNat - b.toNat)
  else BitVec.ofNat 8 (a.toNat + 256 - b.toNat)

/-- Logical shift right by one; bit 7 becomes 0 (R108, R112). -/
def shiftRight (a : Byte) : Byte := BitVec.ofNat 8 (a.toNat / 2)

/-- Logical shift left by one; bit 0 becomes 0 and bit 7 is dropped (R110, R112). -/
def shiftLeft (a : Byte) : Byte := BitVec.ofNat 8 (2 * a.toNat)

/-- The decimal digits of a byte: hundreds, tens, units, one per byte (R123). -/
def bcdDigits (a : Byte) : List Byte :=
  [BitVec.ofNat 8 (a.toNat / 100), BitVec.ofNat 8 (a.toNat / 10 % 10), BitVec.ofNat 8 (a.toNat % 10)]

/-- The address of the glyph of a value's low nibble (R122). -/
def glyphAddr (a : Byte) : Addr :=
  BitVec.ofNat 12 (Config.fontBase + (a.toNat % 16) * Config.glyphHeight)

/-- A jump target: `addr` zero-extended to the width of `PC` (R62, R81, R82). -/
def jumpTarget (addr : Addr) : Word := BitVec.ofNat 16 addr.toNat

/-- The target of `bnnn`: `V[0] + addr`, not reduced modulo 4096 (R87). -/
def offsetTarget (v0 : Byte) (addr : Addr) : Word := BitVec.ofNat 16 (v0.toNat + addr.toNat)

/-! ### The sprite of `dxyn` (R142) -/

/-- The bit number of a sprite byte that supplies sprite column `c`: `7 - c`, or `c` when `SPRITE_MSB_LEFT` is false. -/
def spriteBit (msbLeft : Bool) (c : Nat) : Nat := if msbLeft then 7 - c else c

/-- The sprite columns, left to right, whose bit of a sprite byte is set. -/
def spriteColumns (msbLeft : Bool) (b : Byte) : List Nat :=
  (List.range 8).filter fun c => b.getLsbD (spriteBit msbLeft c)

/-- The display positions (column, row) of the set bits of a sprite whose top row lies at display row `y`, row after row
and left to right: column `vx + c`, row `vy + r`, over naturals and not reduced (R142). -/
def spritePixels (msbLeft : Bool) (vx : Nat) : (y : Nat) → List Byte → List (Nat × Nat)
  | _, [] => []
  | y, b :: bs =>
      (spriteColumns msbLeft b).map (fun c => (vx + c, y)) ++ spritePixels msbLeft vx (y + 1) bs

/-- A display position outside columns 0..63 or rows 0..31 (R144). -/
def pixelOob (p : Nat × Nat) : Bool :=
  decide (Config.dispW ≤ p.1) || decide (Config.dispH ≤ p.2)

/-! ### The display and the key latch as arrays (R40) -/

/-- The pixel at row `r` and column `c`; a position off the screen reads as clear and is never reached (R144). -/
def Display.pixel (d : Display) (r c : Nat) : Bool :=
  if h : r < Config.dispH then d[r].getLsbD c else false

/-- Invert the pixel at row `r` and column `c` (R143). -/
def Display.flip (d : Display) (r c : Nat) : Display :=
  if h : r < Config.dispH then d.set r (d[r] ^^^ BitVec.twoPow Config.dispW c) h else d

/-- The display with every pixel clear (R140). -/
def Display.clear : Display := Vector.replicate Config.dispH 0

/-- Whether key `k` is pressed (R23). -/
def Keys.pressed (keys : Keys) (k : Nat) : Bool :=
  if h : k < Config.keyCount then keys[k] else false

/-- The least key index that is pressed, if any (R153). -/
def Keys.lowest (keys : Keys) : Option Nat := (List.range Config.keyCount).find? fun k => keys.pressed k

end Sys2Proof.Machine
end

