-- ==== Sys2Proof/Machine/Flags.lean ====
section
/-! DEFINITION. The values that `VF` receives (10_state.md rule R11): always 0x00 or 0x01. -/

namespace Sys2Proof.Machine

/-- A flag value: exactly 0x00 or 0x01 (R11, R112). -/
def flagByte (b : Bool) : Byte := if b then 0x01 else 0x00

/-- `8xy4`: 1 iff the 8-bit sum overflowed (R106). -/
def carryFlag (a b : Byte) : Byte := flagByte (decide (255 < a.toNat + b.toNat))

/-- `8xy5`, `8xy7`: 1 iff NO borrow, that is, the minuend is at least the subtrahend (R107, R109, R112). -/
def noBorrowFlag (minuend subtrahend : Byte) : Byte := flagByte (decide (subtrahend.toNat ≤ minuend.toNat))

/-- `8xy6`: bit 0 of the operand before the shift (R108). -/
def shiftRightFlag (a : Byte) : Byte := flagByte (a.getLsbD 0)

/-- `8xyE`: bit 7 of the operand before the shift (R110). -/
def shiftLeftFlag (a : Byte) : Byte := flagByte (a.getLsbD 7)

end Sys2Proof.Machine
end

