-- ==== Sys2Proof/Machine/Ops.lean ====
section
/-! DEFINITION. The named operations over the state: one update per piece of state, and the shared operations that the
meanings are written in: bounds-checked memory access, the flag-writing result, the skip, the recovered
error and the hard fault (this machine's only exceptions: R180, "Trap entry, in one place: there is
none"), the fetch, the key-wait resolution and HOST's turn. -/

namespace Sys2Proof.Machine

/-- The three outcomes of a step of this machine. -/
abbrev Result := Host.Outcome State Fault Refusal

/-! ### One update per piece of state -/

/-- Read general register `x` (R10). -/
def State.reg (s : State) (x : Reg) : Byte := s.v[x.val]
/-- Write general register `x` (R10). -/
def State.setReg (s : State) (x : Reg) (b : Byte) : State := { s with v := s.v.set x.val b x.isLt }
/-- Write `I`. -/
def State.setI (s : State) (a : Addr) : State := { s with i := a }
/-- Write `PC`. -/
def State.setPc (s : State) (p : Word) : State := { s with pc := p }
/-- `STACK[SP] <- p; SP <- SP + 1` (R82). -/
def State.push (s : State) (p : Word) : State := { s with stack := s.stack.set s.sp p, sp := s.sp + 1 }
/-- The top of the stack, `STACK[SP-1]` (R17). -/
def State.top (s : State) : Word := s.stack.getD (s.sp - 1) 0
/-- `SP <- SP - 1`; the slot keeps its value (R80; 92 D28). -/
def State.pop (s : State) : State := { s with sp := s.sp - 1 }
/-- Write `DT`. -/
def State.setDt (s : State) (b : Byte) : State := { s with dt := b }
/-- Write `ST`. -/
def State.setSt (s : State) (b : Byte) : State := { s with st := b }
/-- Write `DT_REF`. -/
def State.setDtRef (s : State) (t : Time) : State := { s with dtRef := t }
/-- Write `MEM`. -/
def State.setMem (s : State) (m : Memory) : State := { s with mem := m }
/-- Write `DISP` and return `display_changed = true` (R66, R140, R141). -/
def State.drawn (s : State) (d : Display) : State := { s with disp := d, displayChanged := true }
/-- Replace the Input Latch wholesale (R188). -/
def State.setKeys (s : State) (k : Keys) : State := { s with keys := k }
/-- Enter the key wait for register `x` (R152). -/
def State.enterWait (s : State) (x : Reg) : State := { s with blocking := true, target := x }
/-- Leave the key wait; `TARGET` keeps its value (R153; 92 D30). -/
def State.leaveWait (s : State) : State := { s with blocking := false }
/-- Note that a random byte has been drawn. -/
def State.noteDraw (s : State) : State := { s with draws := s.draws + 1 }
/-- Move the clock. -/
def State.setNow (s : State) (t : Time) : State := { s with now := t }
/-- Replace what HOST is going to do. -/
def State.setSchedule (s : State) (l : List (List HostOp)) : State := { s with schedule := l }
/-- Set the value that the step returns (R66). -/
def State.setDisplayChanged (s : State) (b : Bool) : State := { s with displayChanged := b }
/-- Append one record to the observer's stream (R175). -/
def State.addReport (s : State) (r : Report) : State := { s with reports := s.reports ++ [r] }

/-! ### Errors (60_exceptions.md) -/

/-- `raise F(info)`: the run ends with a hard fault (R176, R177). -/
def raise (f : Fault) : Result := .fault f

/-- `report E(w, pc0)` for the instruction under execution: `PC` is `pc0 + 2` and stays so, nothing else changes (R172,
R175). -/
def State.report (s : State) (e : RecoveredError) (w : Word) : State := s.addReport ⟨e, w, s.pc - 2⟩

/-! ### Registers, skips and random bytes -/

/-- `PC <- PC + 2`: the advance of the step, and what a satisfied skip adds to it (R64, R83). -/
def State.advance (s : State) : State := s.setPc (s.pc + 2)

/-- Skip the next instruction if the condition holds (R83 to R86, R150, R151). -/
def State.skipIf (s : State) (cond : Bool) : State := if cond then s.advance else s

/-- Write the result to `V[x]` and the flag to `VF`, in the order of `VF_ORDER` (R111). -/
def State.setResultAndFlag (s : State) (x : Reg) (result flag : Byte) : State :=
  match s.params.vfOrder with
  | .flagLast => (s.setReg x result).setReg 15 flag
  | .resultLast => (s.setReg 15 flag).setReg x result

/-- The operand of `8xy6` and `8xyE`: `V[x]`, or `V[y]` when `SHIFT_SRC = Y` (R108, R110). -/
def State.shiftOperand (s : State) (x y : Reg) : Byte :=
  match s.params.shiftSrc with
  | .x => s.reg x
  | .y => s.reg y

/-- `RandByte()` (R113): a free draw, or the constant of the reference configuration. -/
def State.randByte (s : State) : Byte :=
  match s.params.rand with
  | .draw => Config.randByte s.draws
  | .const b => b

/-- Write consecutive registers from number `k` on in ascending order (R125). -/
def State.setRegsFrom (s : State) (k : Nat) : List Byte → State
  | [] => s
  | b :: bs => State.setRegsFrom (if h : k < 16 then s.setReg ⟨k, h⟩ b else s) (k + 1) bs

/-- `V[0]` .. `V[x]` in ascending order (R124). -/
def State.regsUpTo (s : State) (x : Reg) : List Byte := s.v.toList.take (x.val + 1)

/-! ### Memory access with its bounds check (R7, R48) -/

/-- `MemRead(addr, n)`: the bytes, or the hard fault when the last byte is above 0xFFF. -/
def State.memRead (s : State) (a n : Nat) : Except Fault (List Byte) :=
  if rangeOob a n then .error (.oobMemory (a + n - 1)) else .ok (s.mem.readBytes a n)

/-- `MemWrite(addr, n, v)`: all bytes are written, or the hard fault and none is. -/
def State.memWrite (s : State) (a : Nat) (bytes : List Byte) : Except Fault State :=
  if rangeOob a bytes.length then .error (.oobMemory (a + bytes.length - 1))
  else .ok (s.setMem (s.mem.writeBytes a bytes))

/-- The outcome of an access that may raise. -/
def ofAccess (r : Except Fault State) : Result :=
  match r with
  | .ok s => .next s
  | .error f => raise f

/-! ### The sprite compositor and its collision detector (R143) -/

/-- Invert the pixels at the given positions (column, row) one after another; the flag is set as soon as a pixel
that was set is inverted. -/
def composite (d : Display) (collision : Bool) : List (Nat × Nat) → Display × Bool
  | [] => (d, collision)
  | (c, r) :: ps => composite (d.flip r c) (collision || d.pixel r c) ps

/-- The out-of-bounds pixel that `OobDisplay` records: one of those there are, which one is free (log entry 4). -/
def State.recordedPixel (s : State) (oob : List (Nat × Nat)) : Nat × Nat :=
  oob.getD (Config.oobPixelIndex s.draws % oob.length) (0, 0)

/-- Draw the set sprite bits at the given positions, or raise if one is off the screen, before anything is written
(R141, R144). -/
def State.drawPixels (s : State) (pixels : List (Nat × Nat)) : Result :=
  match pixels.filter pixelOob with
  | [] =>
      let (d, collision) := composite s.disp false pixels
      .next ((s.setReg 15 (flagByte collision)).drawn d)
  | p :: ps =>
      let q := s.recordedPixel (p :: ps)
      raise (.oobDisplay q.1 q.2)

/-! ### The fetch (R63) -/

/-- The word at an address, big-endian (R42). -/
def Memory.word (m : Memory) (a : Nat) : Word := wordOfBytes (m.read a) (m.read (a + 1))

/-- Fetch the word at `PC`: out of range first, then the alignment, then the two bytes. -/
def State.fetch (s : State) : Except Fault Word :=
  if 0xFFE < s.pc.toNat then .error (.oobFetch s.pc)
  else if s.pc.getLsbD 0 && decide (s.params.oddPc = .fault) then .error (.misalignedFetch s.pc)
  else .ok (s.mem.word s.pc.toNat)

/-- The state in which an instruction executes: `PC` advanced, `display_changed` false (R64). -/
def State.startInstr (s : State) : State := s.advance.setDisplayChanged false

/-! ### The key wait (R153) -/

/-- `ResolveBlockingWait()`: the lowest pressed key goes to `V[TARGET]` and the wait ends; with no key nothing changes. -/
def State.resolveWait (s : State) : State :=
  match s.keys.lowest with
  | some k => (s.setReg s.target (BitVec.ofNat 8 k)).leaveWait
  | none => s

/-- A step in the blocking state (R64): the resolution and nothing else; it returns `display_changed = false`. -/
def State.poll (s : State) : State := (s.setDisplayChanged false).resolveWait

/-! ### HOST's operations between steps (60_exceptions.md section 8) -/

/-- The instant that lies an interval after another (R186). -/
def later (t d : Time) : Time where
  ms := t.ms + d.ms
  nonneg := add_nonneg t.nonneg d.nonneg

/-- The clock after a HOST operation: only the passing of time moves it, and never back (R186). -/
def clockAfter (now : Time) : HostOp → Time
  | .advanceClock num den => later now (millis num den)
  | .setInputs _ | .ageTimers | .display => now

/-- A countdown timer's decrement; at 0 it stays at 0 (R187; 92 D8). -/
def countDown (t : Byte) : Byte := BitVec.ofNat 8 (t.toNat - 1)

/-- `TICK`: the timers count down once (R189). -/
def State.tick (s : State) : State :=
  (s.setDt (countDown s.dt)).setSt (if s.params.stAges then countDown s.st else s.st)

/-- `age_timers()`: at most one decrement, when at least one interval has passed since `DT_REF` (R187). -/
def State.ageTimers (s : State) : State :=
  if s.params.cadence.ms ≤ s.now.ms - s.dtRef.ms then s.tick.setDtRef s.now else s

/-- `display()`: the grid itself; nothing changes (R190). -/
def State.display (s : State) : Display := s.disp

/-- The effect of one HOST operation (R185). -/
def State.hostOp (s : State) : HostOp → State
  | .setInputs k => s.setKeys k
  | .advanceClock num den => s.setNow (clockAfter s.now (.advanceClock num den))
  | .ageTimers => s.ageTimers
  | .display => s

/-- HOST operations one after another. -/
def State.hostOps (s : State) : List HostOp → State
  | [] => s
  | op :: ops => State.hostOps (s.hostOp op) ops

/-- What HOST does before the next step is done, and taken off the schedule (R8). -/
def State.hostTurn (s : State) : State :=
  match s.schedule with
  | [] => s
  | ops :: rest => (s.setSchedule rest).hostOps ops

end Sys2Proof.Machine
end

