-- ==== Sys2Proof/Machine/Draw.lean ====
section
/-! DEFINITION. The display (43_display.md): `00E0 dxyn`. -/

namespace Sys2Proof.Machine

/-- `00E0` (R140). -/
def execCls (s : State) : Host.Outcome State Fault Refusal :=
  .next (s.drawn Display.clear)

/-- `dxyn` (R141): the coordinates are the register values before `VF` is written (92 D15), the bytes are read before
the pixels are known (R178), and all checks come before any write (R144). -/
def execDrw (x y : Reg) (n : Nibble) (s : State) : Host.Outcome State Fault Refusal :=
  match s.memRead s.i.toNat n.toNat with
  | .error f => raise f
  | .ok rows =>
      s.drawPixels (spritePixels s.params.spriteMsbLeft (s.reg x).toNat (s.reg y).toNat rows)

end Sys2Proof.Machine
end

