-- ==== Sys2Proof/Machine/Flow.lean ====
section
/-! DEFINITION. Control transfer (40_flow.md): `00EE 1nnn 2nnn 3xnn 4xnn 5xy0 9xy0 bnnn`. Every meaning is written for
the moment after the step has advanced `PC`. -/

namespace Sys2Proof.Machine

/-- `00EE` (R80): pop, or the recovered error `StackUnderflow` on an empty stack. -/
def execRet (s : State) : Host.Outcome State Fault Refusal :=
  if s.sp = 0 then .next (s.report .stackUnderflow (encode .ret)) else .next (s.pop.setPc s.top)

/-- `1nnn` (R81). -/
def execJp (addr : Addr) (s : State) : Host.Outcome State Fault Refusal :=
  .next (s.setPc (jumpTarget addr))

/-- `2nnn` (R82): push the post-advance `PC` and jump, or the recovered error `StackOverflow` on a full stack. -/
def execCall (addr : Addr) (s : State) : Host.Outcome State Fault Refusal :=
  if s.sp = s.params.stackCapacity then .next (s.report .stackOverflow (encode (.call addr)))
  else .next ((s.push s.pc).setPc (jumpTarget addr))

/-- `3xnn` (R83). -/
def execSeImm (x : Reg) (nn : Byte) (s : State) : Host.Outcome State Fault Refusal :=
  .next (s.skipIf (decide (s.reg x = nn)))

/-- `4xnn` (R84). -/
def execSneImm (x : Reg) (nn : Byte) (s : State) : Host.Outcome State Fault Refusal :=
  .next (s.skipIf (decide (s.reg x ≠ nn)))

/-- `5xy0` (R85). -/
def execSeReg (x y : Reg) (s : State) : Host.Outcome State Fault Refusal :=
  .next (s.skipIf (decide (s.reg x = s.reg y)))

/-- `9xy0` (R86). -/
def execSneReg (x y : Reg) (s : State) : Host.Outcome State Fault Refusal :=
  .next (s.skipIf (decide (s.reg x ≠ s.reg y)))

/-- `bnnn` (R87). -/
def execJpV0 (addr : Addr) (s : State) : Host.Outcome State Fault Refusal :=
  .next (s.setPc (offsetTarget (s.reg 0) addr))

end Sys2Proof.Machine
end

