-- ==== Sys2Proof/Machine/IndexMem.lean ====
section
/-! DEFINITION. Index register and memory transfer (42_index_mem.md): `annn fx1e fx29 fx33 fx55 fx65`. None of them
but the first three writes `I` (R126). -/

namespace Sys2Proof.Machine

/-- `annn` (R120). -/
def execLdI (addr : Addr) (s : State) : Host.Outcome State Fault Refusal :=
  .next (s.setI addr)

/-- `fx1e` (R121): the hard fault `OobIndex` when the sum is above 0xFFF; no wrap and no flag. -/
def execAddI (x : Reg) (s : State) : Host.Outcome State Fault Refusal :=
  if 0xFFF < s.i.toNat + (s.reg x).toNat then raise (.oobIndex (s.i.toNat + (s.reg x).toNat))
  else .next (s.setI (BitVec.ofNat 12 (s.i.toNat + (s.reg x).toNat)))

/-- `fx29` (R122): the address is computed from the low nibble, not looked up. -/
def execLdFont (x : Reg) (s : State) : Host.Outcome State Fault Refusal :=
  .next (s.setI (glyphAddr (s.reg x)))

/-- `fx33` (R123). -/
def execBcd (x : Reg) (s : State) : Host.Outcome State Fault Refusal :=
  ofAccess (s.memWrite s.i.toNat (bcdDigits (s.reg x)))

/-- `fx55` (R124). -/
def execStoreRegs (x : Reg) (s : State) : Host.Outcome State Fault Refusal :=
  ofAccess (s.memWrite s.i.toNat (s.regsUpTo x))

/-- `fx65` (R125). -/
def execLoadRegs (x : Reg) (s : State) : Host.Outcome State Fault Refusal :=
  ofAccess ((s.memRead s.i.toNat (x.val + 1)).map (s.setRegsFrom 0))

end Sys2Proof.Machine
end

