-- ==== Sys2Proof/Machine/KeysTimers.lean ====
section
/-! DEFINITION. Keys and timers (44_keys_timers.md): `ex9e exa1 fx0a fx07 fx15 fx18`. -/

namespace Sys2Proof.Machine

/-- `ex9e` (R150): the key number is the value of `V[x]`; above 15 it is the hard fault `OobKey`. -/
def execSkp (x : Reg) (s : State) : Host.Outcome State Fault Refusal :=
  if 15 < (s.reg x).toNat then raise (.oobKey (s.reg x).toNat)
  else .next (s.skipIf (s.keys.pressed (s.reg x).toNat))

/-- `exa1` (R151). -/
def execSknp (x : Reg) (s : State) : Host.Outcome State Fault Refusal :=
  if 15 < (s.reg x).toNat then raise (.oobKey (s.reg x).toNat)
  else .next (s.skipIf (!s.keys.pressed (s.reg x).toNat))

/-- `fx07` (R154). -/
def execLdVxDt (x : Reg) (s : State) : Host.Outcome State Fault Refusal :=
  .next (s.setReg x s.dt)

/-- `fx0a` (R152): only enters the wait; it does not look at the latch (92 D24). -/
def execWaitKey (x : Reg) (s : State) : Host.Outcome State Fault Refusal :=
  .next (s.enterWait x)

/-- `fx15` (R155): also resets the aging reference instant. -/
def execLdDtVx (x : Reg) (s : State) : Host.Outcome State Fault Refusal :=
  .next ((s.setDt (s.reg x)).setDtRef s.now)

/-- `fx18` (R156): `DT_REF` is not touched. -/
def execLdStVx (x : Reg) (s : State) : Host.Outcome State Fault Refusal :=
  .next (s.setSt (s.reg x))

end Sys2Proof.Machine
end

