-- ==== Sys2Proof/Machine/Step.lean ====
section
/-! DEFINITION. The step (30_encoding.md rule R64): what HOST has scheduled before it, then either the key-wait
resolution or one fetch-advance-decode-execute cycle of CORE. -/

namespace Sys2Proof.Machine

/-- An unsupported word is a reported no-op (R68). -/
def runWord (w : Word) (s : State) : Host.Outcome State Fault Refusal :=
  match decode w with
  | some i => exec i s
  | none => .next (s.report .unsupportedOpcode w)

/-- CORE's part of a step (R64). -/
def coreStep (s : State) : Host.Outcome State Fault Refusal :=
  if s.blocking then .next s.poll
  else
    match s.fetch with
    | .error f => raise f
    | .ok w => runWord w s.startInstr

/-- One step: HOST acts only between steps (R8), so what it does comes first. -/
def step (s : State) : Host.Outcome State Fault Refusal := coreStep s.hostTurn

/-- `s` with the instruction word `w` (its low `nbits` bits, big-endian) at `PC`, and not waiting for a key, so that
the next step fetches it. -/
def State.withFetchWord (s : State) (nbits w : Nat) : State :=
  let word : Word := BitVec.ofNat 16 (w % 2 ^ nbits)
  { s with
    mem := s.mem.writeBytes s.pc.toNat [highByte word, lowByte word]
    blocking := false }

end Sys2Proof.Machine
end

