-- ==== Sys2Proof/Machine/HostOps.lean ====
section
/-! DEFINITION. `load` (70_reset_and_hazards.md rules R200 to R204) and the life of a machine as HOST sees it: nothing
loaded, running, ended by a hard fault (60_exceptions.md rules R177, R185). -/

namespace Sys2Proof.Machine

/-- Why `load` refuses an image before the run (R170). -/
inductive LoadError where
  /-- The image has an odd number of bytes (R202). -/
  | invalidProgram
  /-- The image has more than 3584 bytes (R203; 92 D17). -/
  | programTooLarge
  deriving DecidableEq, Repr

/-- The memory after `load`: the font first, then the program at 0x200, every other byte 0x00 (R200). -/
def loadedMemory (font : Vector Byte Config.fontSize) (image : List Byte) : Memory :=
  (Memory.writeBytes [] Config.fontBase font.toList).writeBytes Config.programBase image

/-- The Machine State that `load` creates, all other fields zeroed (R200). DESIGN CHOICE (log entry 22): the count of random
draws, which is the model's own field, starts again at 0, so the draws of a run after a second `load` repeat those
after the first; `RandByte()` is an input from outside (R9, R113), and the spec does not say that `load` restarts it. -/
def loadedState (p : Params) (font : Vector Byte Config.fontSize) (now : Time) (image : List Byte) : State :=
  { State.reset with
    mem := loadedMemory font image
    stack := List.replicate p.stackCapacity 0
    dtRef := now
    now := now
    params := p }

/-- `load(program_bytes)` (R200) on a machine with the given parameters, font and clock. -/
def load (p : Params) (font : Vector Byte Config.fontSize) (now : Time) (image : List Byte) :
    Except LoadError State :=
  if imageEven image = false then .error .invalidProgram
  else if imageFits image = false then .error .programTooLarge
  else .ok (loadedState p font now image)

/-- What HOST may call (R185). `load` reads the clock itself and is not handed an instant (R186). DESIGN CHOICE (log entry
21): every `load` may bring parameters and a font of its own; the spec gives `load(program_bytes)` only and is
silent on whether a second one keeps those of the first. -/
inductive HostCall where
  | load (p : Params) (font : Vector Byte Config.fontSize) (image : List Byte)
  | step
  | op (o : HostOp)
  deriving DecidableEq, Repr

/-- Where the life of a machine stands. The injectable clock comes from outside CORE and runs on where there is no
Machine State (R186); a Machine State holds it itself. -/
inductive Session where
  /-- No Machine State exists: before the first `load`, or after one that failed (R202). -/
  | empty (clock : Time) (why : Option LoadError)
  /-- `FAULT = none`. -/
  | running (s : State)
  /-- `FAULT` holds a hard fault; the Machine State may not be relied upon (R177). -/
  | faulted (clock : Time) (f : Fault)
  /-- A step was refused; no step of this model is. -/
  | refused (clock : Time) (r : Refusal)
  deriving DecidableEq, Repr

/-- What `Now()` returns (R186). -/
def Session.now : Session → Time
  | .empty clock _ | .faulted clock _ | .refused clock _ => clock
  | .running s => s.now

/-- `load` on a machine wherever it stands: what there was is discarded (R204), its parameters among it (DESIGN CHOICE, log
entry 21), and `Now()` is the clock as it runs (R186). -/
def Session.load (m : Session) (p : Params) (font : Vector Byte Config.fontSize) (image : List Byte) : Session :=
  match Sys2Proof.Machine.load p font m.now image with
  | .ok s => .running s
  | .error e => .empty m.now (some e)

/-- A step call: a faulted machine has no further step (R177), and without a Machine State none is possible (R202). -/
def Session.step : Session → Session
  | .running s =>
      match Sys2Proof.Machine.step s with
      | .next t => .running t
      | .fault f => .faulted s.hostTurn.now f
      | .refused r => .refused s.hostTurn.now r
  | .empty clock why => .empty clock why
  | .faulted clock f => .faulted clock f
  | .refused clock r => .refused clock r

/-- A HOST operation: without a running machine it only lets time pass. -/
def Session.hostOp (m : Session) (o : HostOp) : Session :=
  match m with
  | .running s => .running (s.hostOp o)
  | .empty clock why => .empty (clockAfter clock o) why
  | .faulted clock f => .faulted (clockAfter clock o) f
  | .refused clock r => .refused (clockAfter clock o) r

/-- The effect of one call. -/
def Session.call (m : Session) : HostCall → Session
  | .load p font image => m.load p font image
  | .step => m.step
  | .op o => m.hostOp o

end Sys2Proof.Machine
end

