-- ==== Sys2Proof/Safety.lean ====
section
/-! DEFINITION. What claims about runs are stated in: the invariant of every reachable state (10_state.md rule R29), a
step without error (60_exceptions.md rules R175, R177), the proper end of a program (70_reset_and_hazards.md
rule R213), and what a step leaves as it was (the table of R28). -/

namespace Sys2Proof.Machine

/-- The state invariant (R29), with the canonical form of `MEM` and the order of the clock (R186). The bounds on
register values in R29 and the sign of time values (R20) are the field types. -/
structure State.Inv (s : State) : Prop where
  /-- `MEM` is in canonical form. -/
  memWf : s.mem.wf = true
  /-- `STACK` has `STACK_CAPACITY` slots (R16). -/
  stackLength : s.stack.length = s.params.stackCapacity
  /-- `0 ≤ SP ≤ STACK_CAPACITY` (R17). -/
  spBound : s.sp ≤ s.params.stackCapacity
  /-- `PC ≤ 0x10FE` (R15, R29). -/
  pcBound : s.pc.toNat ≤ 0x10FE
  /-- Every occupied slot holds a return address of at most 0x1000 (R29). -/
  slotBound : ∀ k, k < s.sp → (s.stack.getD k 0).toNat ≤ 0x1000
  /-- The clock never goes back behind the reference instant (R186). -/
  dtRefPast : s.dtRef.ms ≤ s.now.ms

/-- A step that ends without a hard fault and reports nothing. -/
def State.StepsWithoutError (s : State) : Prop :=
  ∃ t, step s = .next t ∧ t.reports = s.reports

/-- IDLE (R213): not blocking, and `PC` at a jump to itself; this spec's definition of "the program has finished". -/
def State.Idle (s : State) : Prop :=
  s.blocking = false ∧ s.pc.toNat ≤ 0xFFE ∧ s.pc.getLsbD 0 = false ∧
    s.mem.word s.pc.toNat = 0x1000 ||| s.pc

/-- What happens between two steps of the time-free machine (R189, R188): the event `TICK`, or a `set_inputs`. -/
inductive TimeFreeEvent where
  | tick
  | setInputs (keys : Keys)
  deriving DecidableEq, Repr

/-- The effect of an event of the time-free machine. -/
def State.timeFreeEvent (s : State) : TimeFreeEvent → State
  | .tick => s.tick
  | .setInputs k => s.setKeys k

/-- The state of the time-free machine (R189): it drops `DT_REF`, the clock, and with them HOST's timed schedule. -/
def State.timeFree (s : State) : State := ((s.setDtRef clockOrigin).setNow clockOrigin).setSchedule []

/-- The parts of the state, in the order of the table of R28, then the model's own fields. -/
inductive Part where
  | regs | index | pc | stack | delayTimer | soundTimer | dtRef | memory | display | keys | keyWait
  | params | clock | draws | schedule | reports | displayChanged
  deriving DecidableEq, Repr

/-- A part is the same in two states; memory is compared by reading every address. -/
def Part.Kept (s t : State) : Part → Prop
  | .regs => ∀ j, t.reg j = s.reg j
  | .index => t.i = s.i
  | .pc => t.pc = s.pc
  | .stack => t.stack = s.stack ∧ t.sp = s.sp
  | .delayTimer => t.dt = s.dt
  | .soundTimer => t.st = s.st
  | .dtRef => t.dtRef = s.dtRef
  | .memory => ∀ a, t.mem.read a = s.mem.read a
  | .display => t.disp = s.disp
  | .keys => t.keys = s.keys
  | .keyWait => t.blocking = s.blocking ∧ t.target = s.target
  | .params => t.params = s.params
  | .clock => t.now = s.now
  | .draws => t.draws = s.draws
  | .schedule => t.schedule = s.schedule
  | .reports => t.reports = s.reports
  | .displayChanged => t.displayChanged = s.displayChanged

/-- Every part of the state that is not among the touched ones is as it was. -/
def Frame (touched : List Part) (s t : State) : Prop := ∀ p, p ∉ touched → p.Kept s t

/-- Every general register that is not among the written ones is as it was. -/
def RegsKeptExcept (written : List Reg) (s t : State) : Prop := ∀ j, j ∉ written → t.reg j = s.reg j

end Sys2Proof.Machine
end

