-- ==== Sys2Proof/Certificates/Slice0/Obligations.lean ====
section
/-! DEFINITION. The statements for the provers. Each docstring names the rules of the spec that it formalises; where a
clause rests on a decision of the spec (92_eei_decisions.md) or on a choice of this model, it says so. `exec i s`
is the instruction at the moment after the step has advanced `PC` (R64), so "`PC` as it was" means `pc0 + 2`.
A `Frame` names the parts of the state an instruction may change; every other part, and every byte of memory
unless memory is named, is as it was. -/

open Sys2Proof Sys2Proof.Machine

/-! ### Encoding -/

/-- Decoding an encoded instruction gives it back, for every instruction with every operand (R61, R65; no instruction
is ill-formed). -/
def Obligations.DecodeOfEncodeGivesTheInstruction : Prop := ∀ i : Instr, decode (encode i) = some i

/-- Every word that decodes has one meaning: encoding what it decodes to gives the word back, no bit dropped (R65). In
families 0, E and F this rests on decision D16, the match on the whole pattern (log entry 14). -/
def Obligations.EncodeOfDecodeGivesTheWord : Prop := ∀ (w : Word) (i : Instr), decode w = some i → encode i = w

/-- The encoding line of every instruction rule, in arithmetic: the match column of R65 with `addr`, `x << 8`, `y << 4`,
`n` and `nn` in their places (R61, R62: nothing is scaled or sign-extended). -/
def Obligations.EncodingsAreThoseOfTheOpcodeMap : Prop :=
  (encode .cls).toNat = 0x00E0 ∧ (encode .ret).toNat = 0x00EE ∧
  (∀ a : Addr,
    (encode (.jp a)).toNat = 0x1000 + a.toNat ∧ (encode (.call a)).toNat = 0x2000 + a.toNat ∧
    (encode (.ldI a)).toNat = 0xA000 + a.toNat ∧ (encode (.jpV0 a)).toNat = 0xB000 + a.toNat) ∧
  (∀ (x : Reg) (nn : Byte),
    (encode (.seImm x nn)).toNat = 0x3000 + 0x100 * x.val + nn.toNat ∧
    (encode (.sneImm x nn)).toNat = 0x4000 + 0x100 * x.val + nn.toNat ∧
    (encode (.ldImm x nn)).toNat = 0x6000 + 0x100 * x.val + nn.toNat ∧
    (encode (.addImm x nn)).toNat = 0x7000 + 0x100 * x.val + nn.toNat ∧
    (encode (.rnd x nn)).toNat = 0xC000 + 0x100 * x.val + nn.toNat) ∧
  (∀ x y : Reg,
    (encode (.seReg x y)).toNat = 0x5000 + 0x100 * x.val + 0x10 * y.val ∧
    (encode (.ldReg x y)).toNat = 0x8000 + 0x100 * x.val + 0x10 * y.val ∧
    (encode (.orReg x y)).toNat = 0x8001 + 0x100 * x.val + 0x10 * y.val ∧
    (encode (.andReg x y)).toNat = 0x8002 + 0x100 * x.val + 0x10 * y.val ∧
    (encode (.xorReg x y)).toNat = 0x8003 + 0x100 * x.val + 0x10 * y.val ∧
    (encode (.addReg x y)).toNat = 0x8004 + 0x100 * x.val + 0x10 * y.val ∧
    (encode (.sub x y)).toNat = 0x8005 + 0x100 * x.val + 0x10 * y.val ∧
    (encode (.shr x y)).toNat = 0x8006 + 0x100 * x.val + 0x10 * y.val ∧
    (encode (.subn x y)).toNat = 0x8007 + 0x100 * x.val + 0x10 * y.val ∧
    (encode (.shl x y)).toNat = 0x800E + 0x100 * x.val + 0x10 * y.val ∧
    (encode (.sneReg x y)).toNat = 0x9000 + 0x100 * x.val + 0x10 * y.val) ∧
  (∀ (x y : Reg) (n : Nibble),
    (encode (.drw x y n)).toNat = 0xD000 + 0x100 * x.val + 0x10 * y.val + n.toNat) ∧
  (∀ x : Reg,
    (encode (.skp x)).toNat = 0xE09E + 0x100 * x.val ∧ (encode (.sknp x)).toNat = 0xE0A1 + 0x100 * x.val ∧
    (encode (.ldVxDt x)).toNat = 0xF007 + 0x100 * x.val ∧ (encode (.waitKey x)).toNat = 0xF00A + 0x100 * x.val ∧
    (encode (.ldDtVx x)).toNat = 0xF015 + 0x100 * x.val ∧ (encode (.ldStVx x)).toNat = 0xF018 + 0x100 * x.val ∧
    (encode (.addI x)).toNat = 0xF01E + 0x100 * x.val ∧ (encode (.ldFont x)).toNat = 0xF029 + 0x100 * x.val ∧
    (encode (.bcd x)).toNat = 0xF033 + 0x100 * x.val ∧ (encode (.storeRegs x)).toNat = 0xF055 + 0x100 * x.val ∧
    (encode (.loadRegs x)).toNat = 0xF065 + 0x100 * x.val)

/-- The exact set of unsupported words, family by family (R67; the granularity of families 0, E and F is decision D16). -/
def Obligations.UnsupportedWordsAreTheListedOnes : Prop :=
  ∀ w : Word, decode w = none ↔
    (w.toNat / 0x1000 = 0x0 ∧ w.toNat ≠ 0x00E0 ∧ w.toNat ≠ 0x00EE) ∨
    (w.toNat / 0x1000 = 0x5 ∧ w.toNat % 16 ≠ 0) ∨
    (w.toNat / 0x1000 = 0x8 ∧ w.toNat % 16 ∈ [0x8, 0x9, 0xA, 0xB, 0xC, 0xD, 0xF]) ∨
    (w.toNat / 0x1000 = 0x9 ∧ w.toNat % 16 ≠ 0) ∨
    (w.toNat / 0x1000 = 0xE ∧ w.toNat % 256 ∉ [0x9E, 0xA1]) ∨
    (w.toNat / 0x1000 = 0xF ∧ w.toNat % 256 ∉ [0x07, 0x0A, 0x15, 0x18, 0x1E, 0x29, 0x33, 0x55, 0x65])

/-- Words of the decode table T-E of 95_test_vectors.md, as the two bytes that memory holds (R42). That 0x01E0 is
unsupported is decision D16 (log entry 14). -/
def Obligations.SampleWordsDecodeAsTabled : Prop :=
  decodeBytes [0x00, 0xE0] = .ok (.cls, []) ∧ decodeBytes [0x1A, 0xBC] = .ok (.jp 0xABC, []) ∧
  decodeBytes [0x51, 0x20] = .ok (.seReg 1 2, []) ∧ decodeBytes [0x8A, 0xB4] = .ok (.addReg 0xA 0xB, []) ∧
  decodeBytes [0xD1, 0x25] = .ok (.drw 1 2 5, []) ∧ decodeBytes [0xE3, 0x9E] = .ok (.skp 3, []) ∧
  decodeBytes [0xF5, 0x65, 0x12] = .ok (.loadRegs 5, [0x12]) ∧
  decodeBytes [0x8A, 0xB8] = .error (.unsupportedOpcode 0x8AB8) ∧
  decodeBytes [0x01, 0xE0] = .error (.unsupportedOpcode 0x01E0)

/-! ### The step -/

/-- A step runs the decoded instruction (R63, R64): after HOST's turn, if CORE is not waiting for a key and the two
bytes at `PC` (within memory, and even unless `ODD_PC_POLICY` is `execute`) decode to `i`, the step is `i` in the
state with `PC` advanced by 2 and `display_changed` false. -/
def Obligations.StepRunsTheDecodedInstruction : Prop :=
  ∀ (s h : State) (i : Instr), s.hostTurn = h → h.blocking = false → h.pc.toNat ≤ 0xFFE →
    (h.pc.toNat % 2 = 0 ∨ h.params.oddPc = .execute) →
    decode (h.mem.read h.pc.toNat ++ h.mem.read (h.pc.toNat + 1)) = some i →
    step s = exec i { h with pc := h.pc + 2, displayChanged := false }

/-- An unsupported opcode is reported and is otherwise a no-op (R68): "no state change, execution continues at the
already-advanced `program_counter`". -/
def Obligations.UnsupportedOpcodeIsAReportedNoOp : Prop :=
  ∀ (s h : State) (w : Word), s.hostTurn = h → h.blocking = false → h.fetch = .ok w → decode w = none →
    ∃ t, step s = .next t ∧ t.pc = h.pc + 2 ∧ t.displayChanged = false ∧
      t.reports = h.reports ++ [⟨.unsupportedOpcode, w, h.pc⟩] ∧
      Frame [.pc, .displayChanged, .reports] h t

/-- The fetch's faults, their order and their conditions (R63, R178; decisions D3, D4, D20): the range is checked before
the alignment, and a legal fetch reads the two bytes big-endian (R42). In the state `s` that HOST's turn leaves
and that is not waiting for a key, the fetch's fault is the step's. -/
def Obligations.FetchFaultsBeforeItReads : Prop :=
  ∀ s : State,
    (0xFFE < s.pc.toNat → s.fetch = .error (.oobFetch s.pc)) ∧
    (s.pc.toNat ≤ 0xFFE → s.pc.toNat % 2 = 1 → s.params.oddPc = .fault →
      s.fetch = .error (.misalignedFetch s.pc)) ∧
    (s.pc.toNat ≤ 0xFFE → (s.pc.toNat % 2 = 0 ∨ s.params.oddPc = .execute) →
      ∃ w, s.fetch = .ok w ∧
        w.toNat = 256 * (s.mem.read s.pc.toNat).toNat + (s.mem.read (s.pc.toNat + 1)).toNat) ∧
    (∀ (q : State) (f : Fault), q.hostTurn = s → s.blocking = false → s.fetch = .error f → step q = .fault f)

/-- A step in the blocking state is the resolution and nothing else (R64, R153): the lowest pressed key goes to
`V[TARGET]` and the wait ends; with no key pressed nothing changes. Choices: the poll never also fetches (decision
D18, log entry 19), the level of the latch counts (D24, log entry 19), `TARGET` keeps its value (D30, log entry 17). -/
def Obligations.BlockingStepOnlyResolvesTheWait : Prop :=
  ∀ (s h : State), s.hostTurn = h → h.blocking = true →
    ((∀ k, h.keys.pressed k = false) →
      ∃ t, step s = .next t ∧ t.displayChanged = false ∧ Frame [.displayChanged] h t) ∧
    (∀ k, h.keys.pressed k = true → (∀ j, j < k → h.keys.pressed j = false) →
      ∃ t, step s = .next t ∧ (t.reg h.target).toNat = k ∧ RegsKeptExcept [h.target] h t ∧ t.blocking = false ∧
        t.target = h.target ∧ t.displayChanged = false ∧ Frame [.regs, .keyWait, .displayChanged] h t)

/-- The key-wait state machine (R157): a step ends in the wait exactly as a poll that found no key, or by executing
`fx0a`, whose register is then `TARGET`. Choices (log entry 19): a blocking step never fetches (decision D18); `fx0a`
enters the wait whatever keys are down, and the level of the latch ends it (decision D24). -/
def Obligations.OnlyWaitKeyEntersTheWait : Prop :=
  ∀ s h t : State, s.hostTurn = h → step s = .next t →
    (t.blocking = true ↔
      (h.blocking = true ∧ ∀ k, h.keys.pressed k = false) ∨
      (h.blocking = false ∧ ∃ x, h.fetch = .ok (encode (.waitKey x)) ∧ t.target = x))

/-- `display_changed` (R66; decision D26): a step returns true exactly when it executed `00E0` or `dxyn`. -/
def Obligations.DisplayChangedExactlyByClearAndDraw : Prop :=
  ∀ s h t : State, s.hostTurn = h → step s = .next t →
    (t.displayChanged = true ↔
      h.blocking = false ∧ ∃ w, h.fetch = .ok w ∧
        (decode w = some .cls ∨ ∃ x y n, decode w = some (.drw x y n)))

/-- Every step keeps the state invariant (R29, R15, R17, R186, and the canonical form of memory), whatever HOST does
before it. -/
def Obligations.StepKeepsTheStateInvariant : Prop :=
  ∀ s t : State, s.Inv → step s = .next t → t.Inv

/-- The state after reset meets the state invariant (R28, R29). -/
def Obligations.ResetMeetsTheStateInvariant : Prop := State.reset.Inv

/-- An IDLE state stays IDLE (R213; decision D21): a step completes without error, only HOST's turn changes anything but
the value the step returns, and the state is IDLE again. -/
def Obligations.IdleStateStaysIdle : Prop :=
  ∀ s : State, s.Idle → s.StepsWithoutError ∧ ∃ t, step s = .next t ∧ t.Idle ∧ t.displayChanged = false ∧
    Frame [.displayChanged] s.hostTurn t ∧
    Frame [.keys, .delayTimer, .soundTimer, .dtRef, .clock, .schedule, .displayChanged] s t

/-! ### Whole-machine rules -/

/-- The table of R28, column "written by", as far as instructions write: a part of the state that an instruction changes
has that instruction among its writers, a register by its number (R10, R11), and `PC`, once the step has advanced
it, only by a jump, call, return or skip (R14); no instruction changes the latch, the parameters, the clock or
HOST's schedule (R23, R9), and only the two recovered errors of R80 and R82 report. -/
def Obligations.StateElementsChangeOnlyByTheirWriters : Prop :=
  ∀ (i : Instr) (s t : State), exec i s = .next t →
    (∀ j, t.reg j ≠ s.reg j →
      (∃ nn, i = .ldImm j nn ∨ i = .addImm j nn ∨ i = .rnd j nn) ∨
      (∃ y, i = .ldReg j y ∨ i = .orReg j y ∨ i = .andReg j y ∨ i = .xorReg j y ∨ i = .addReg j y ∨
        i = .sub j y ∨ i = .shr j y ∨ i = .subn j y ∨ i = .shl j y) ∨
      i = .ldVxDt j ∨ (∃ x, i = .loadRegs x ∧ j ≤ x) ∨
      (j = 15 ∧ ((∃ x y, i = .addReg x y ∨ i = .sub x y ∨ i = .shr x y ∨ i = .subn x y ∨ i = .shl x y) ∨
        ∃ x y n, i = .drw x y n))) ∧
    (t.pc ≠ s.pc →
      (∃ a, i = .jp a ∨ i = .call a ∨ i = .jpV0 a) ∨ i = .ret ∨
      (∃ x nn, i = .seImm x nn ∨ i = .sneImm x nn) ∨ (∃ x y, i = .seReg x y ∨ i = .sneReg x y) ∨
      ∃ x, i = .skp x ∨ i = .sknp x) ∧
    (t.i ≠ s.i → (∃ a, i = .ldI a) ∨ (∃ x, i = .addI x) ∨ ∃ x, i = .ldFont x) ∧
    (t.stack ≠ s.stack → ∃ a, i = .call a) ∧
    (t.sp ≠ s.sp → i = .ret ∨ ∃ a, i = .call a) ∧
    (t.dt ≠ s.dt ∨ t.dtRef ≠ s.dtRef → ∃ x, i = .ldDtVx x) ∧
    (t.st ≠ s.st → ∃ x, i = .ldStVx x) ∧
    (t.mem ≠ s.mem → (∃ x, i = .bcd x) ∨ ∃ x, i = .storeRegs x) ∧
    (t.disp ≠ s.disp ∨ t.displayChanged ≠ s.displayChanged → i = .cls ∨ ∃ x y n, i = .drw x y n) ∧
    (t.blocking ≠ s.blocking ∨ t.target ≠ s.target → ∃ x, i = .waitKey x) ∧
    (t.draws ≠ s.draws → ∃ x nn, i = .rnd x nn) ∧
    (t.reports ≠ s.reports →
      (i = .ret ∧ s.sp = 0) ∨ ∃ a, i = .call a ∧ s.sp = s.params.stackCapacity) ∧
    t.keys = s.keys ∧ t.params = s.params ∧ t.now = s.now ∧ t.schedule = s.schedule

/-- Sprite pixel (column `c`, row `r`) of a sprite of `n` rows at `I` is set (R142): bit `7 - c` of byte `I + r`, or bit `c`
when `SPRITE_MSB_LEFT` is false (decision D12). -/
def Sys2Proof.Machine.SpriteBit (s : State) (n : Nibble) (c r : Nat) : Prop :=
  r < n.toNat ∧ c < 8 ∧
    (s.mem.read (s.i.toNat + r)).getLsbD (if s.params.spriteMsbLeft then 7 - c else c) = true

/-- The table of R170 (decisions D1, D2, D5): which instruction raises which hard fault, under exactly which condition,
with which recorded value; no other instruction raises anything, and none is refused. -/
def Obligations.HardFaultsAreTheListedOnes : Prop :=
  ∀ (i : Instr) (s : State),
    (∀ r, exec i s ≠ .refused r) ∧
    ∀ f, exec i s = .fault f →
      (∃ x, i = .bcd x ∧ 0xFFF < s.i.toNat + 2 ∧ f = .oobMemory (s.i.toNat + 2)) ∨
      (∃ x, (i = .storeRegs x ∨ i = .loadRegs x) ∧ 0xFFF < s.i.toNat + x.val ∧
        f = .oobMemory (s.i.toNat + x.val)) ∨
      (∃ x y n, i = .drw x y n ∧ 0 < n.toNat ∧ 0xFFF < s.i.toNat + n.toNat - 1 ∧
        f = .oobMemory (s.i.toNat + n.toNat - 1)) ∨
      (∃ x y n c r, i = .drw x y n ∧ SpriteBit s n c r ∧
        (63 < (s.reg x).toNat + c ∨ 31 < (s.reg y).toNat + r) ∧
        f = .oobDisplay ((s.reg x).toNat + c) ((s.reg y).toNat + r)) ∨
      (∃ x, i = .addI x ∧ 0xFFF < s.i.toNat + (s.reg x).toNat ∧
        f = .oobIndex (s.i.toNat + (s.reg x).toNat)) ∨
      (∃ x, (i = .skp x ∨ i = .sknp x) ∧ 15 < (s.reg x).toNat ∧ f = .oobKey (s.reg x).toNat)

/-- No instruction reads the sound timer (R19, R30; 90 C1: "no instruction can tell the difference"): two states that
differ in `ST` only have the same outcome but for `ST`. -/
def Obligations.NoInstructionReadsTheSoundTimer : Prop :=
  ∀ (i : Instr) (s : State) (b : Byte),
    (∀ t, exec i s = .next t → ∃ u, exec i (s.setSt b) = .next u ∧ u.setSt t.st = t) ∧
    (∀ f, exec i s = .fault f → exec i (s.setSt b) = .fault f)

/-- Only `fx15` reads the clock (R186: besides it, `load` and `age_timers` do): any other instruction has the same outcome
at any other instant, but for the instant itself. -/
def Obligations.OnlySettingTheDelayTimerReadsTheClock : Prop :=
  ∀ (i : Instr) (s : State) (c : Time), (∀ x, i ≠ .ldDtVx x) →
    (∀ t, exec i s = .next t → exec i (s.setNow c) = .next (t.setNow c)) ∧
    (∀ f, exec i s = .fault f → exec i (s.setNow c) = .fault f)

/-- The timed machine refines the time-free one (R189; decision D22): with the reference instant, the clock and HOST's timed
schedule dropped, a HOST operation is a `TICK`, a `set_inputs` or nothing; an instruction, and CORE's part of a
step (fetch, poll, unsupported word), do the same as without a clock; and so a step of the timed machine is some
events of the time-free one and then its step. -/
def Obligations.TimedMachineRefinesTheTimeFreeOne : Prop :=
  (∀ (s : State) (op : HostOp), ∃ s', (s' = s ∨ s' = s.tick ∨ ∃ k, s' = s.setKeys k) ∧
    (s.hostOp op).timeFree = s'.timeFree) ∧
  (∀ (i : Instr) (s : State),
    (∀ t, exec i s = .next t → exec i s.timeFree = .next t.timeFree) ∧
    (∀ f, exec i s = .fault f → exec i s.timeFree = .fault f)) ∧
  (∀ s : State,
    (∀ t, coreStep s = .next t → coreStep s.timeFree = .next t.timeFree) ∧
    (∀ f, coreStep s = .fault f → coreStep s.timeFree = .fault f)) ∧
  (∀ s : State, ∃ events : List TimeFreeEvent,
    (∀ t, step s = .next t → step (events.foldl State.timeFreeEvent s.timeFree) = .next t.timeFree) ∧
    (∀ f, step s = .fault f → step (events.foldl State.timeFreeEvent s.timeFree) = .fault f))

/-- Equal memories are equal data: two memories in canonical form that read alike at every address are the same list
(the model's own form of R21). -/
def Obligations.CanonicalMemoriesThatReadAlikeAreEqual : Prop :=
  ∀ m n : Memory, m.wf = true → n.wf = true → (∀ a, m.read a = n.read a) → m = n

/-- The encoding of an instruction (the "Encoding" of its rule): its word is the number `w`, and that word decodes to it. -/
def Sys2Proof.Machine.HasEncoding (i : Instr) (w : Nat) : Prop :=
  (encode i).toNat = w ∧ decode (BitVec.ofNat 16 w) = some i

/-! ### Load and arithmetic (41_alu.md) -/

/-- `6xnn` and `8xy0` (R100, R102). -/
def Obligations.LoadAndMoveWriteTheirRegister : Prop :=
  (∀ (s : State) (x : Reg) (nn : Byte), HasEncoding (.ldImm x nn) (0x6000 + 0x100 * x.val + nn.toNat) ∧
    ∃ t, exec (.ldImm x nn) s = .next t ∧ t.reg x = nn ∧ RegsKeptExcept [x] s t ∧ Frame [.regs] s t) ∧
  (∀ (s : State) (x y : Reg), HasEncoding (.ldReg x y) (0x8000 + 0x100 * x.val + 0x10 * y.val) ∧
    ∃ t, exec (.ldReg x y) s = .next t ∧ t.reg x = s.reg y ∧ RegsKeptExcept [x] s t ∧ Frame [.regs] s t)

/-- `7xnn` (R101): the sum modulo 256, and no flag: `VF` is as it was unless it is the destination. -/
def Obligations.AddImmediateWrapsWithoutFlag : Prop :=
  ∀ (s : State) (x : Reg) (nn : Byte), HasEncoding (.addImm x nn) (0x7000 + 0x100 * x.val + nn.toNat) ∧
    ∃ t, exec (.addImm x nn) s = .next t ∧
    (t.reg x).toNat = ((s.reg x).toNat + nn.toNat) % 256 ∧ (x ≠ 15 → t.reg 15 = s.reg 15) ∧
    RegsKeptExcept [x] s t ∧ Frame [.regs] s t

/-- `8xy1`, `8xy2`, `8xy3` (R103, R104, R105): bitwise on all eight bits, and no flag. -/
def Obligations.BitwiseFormsActOnEveryBit : Prop :=
  ∀ (s : State) (x y : Reg),
    (HasEncoding (.orReg x y) (0x8001 + 0x100 * x.val + 0x10 * y.val) ∧
      HasEncoding (.andReg x y) (0x8002 + 0x100 * x.val + 0x10 * y.val) ∧
      HasEncoding (.xorReg x y) (0x8003 + 0x100 * x.val + 0x10 * y.val)) ∧
    (∃ t, exec (.orReg x y) s = .next t ∧
      (∀ b, (t.reg x).getLsbD b = ((s.reg x).getLsbD b || (s.reg y).getLsbD b)) ∧
      RegsKeptExcept [x] s t ∧ Frame [.regs] s t) ∧
    (∃ t, exec (.andReg x y) s = .next t ∧
      (∀ b, (t.reg x).getLsbD b = ((s.reg x).getLsbD b && (s.reg y).getLsbD b)) ∧
      RegsKeptExcept [x] s t ∧ Frame [.regs] s t) ∧
    (∃ t, exec (.xorReg x y) s = .next t ∧
      (∀ b, (t.reg x).getLsbD b = ((s.reg x).getLsbD b ^^ (s.reg y).getLsbD b)) ∧
      RegsKeptExcept [x] s t ∧ Frame [.regs] s t)

/-- What a flag-writing form leaves (R111): the result in `V[x]` and the flag in `VF`; with `x = 0xF` the one that
`VF_ORDER` names last (decision D13: the flag, by default). -/
def Sys2Proof.Machine.ResultAndFlag (s t : State) (x : Reg) (result flag : Nat) : Prop :=
  (x ≠ 15 ∨ s.params.vfOrder = .flagLast → (t.reg 15).toNat = flag) ∧
  (x ≠ 15 ∨ s.params.vfOrder = .resultLast → (t.reg x).toNat = result) ∧
  RegsKeptExcept [x, 15] s t ∧ Frame [.regs] s t

/-- `8xy4` (R106, R111, R112): the sum modulo 256, and 1 in `VF` iff the sum is above 255. -/
def Obligations.AddSetsTheCarryFlag : Prop :=
  ∀ (s : State) (x y : Reg), ∃ t, exec (.addReg x y) s = .next t ∧
    ResultAndFlag s t x (((s.reg x).toNat + (s.reg y).toNat) % 256)
      (if 255 < (s.reg x).toNat + (s.reg y).toNat then 1 else 0)

/-- `8xy5` and `8xy7` (R107, R109, R111, R112): the difference modulo 256, and 1 in `VF` iff there is NO borrow. -/
def Obligations.SubtractionsSetTheNoBorrowFlag : Prop :=
  ∀ (s : State) (x y : Reg),
    (∃ t, exec (.sub x y) s = .next t ∧
      ResultAndFlag s t x (((s.reg x).toNat + 256 - (s.reg y).toNat) % 256)
        (if (s.reg y).toNat ≤ (s.reg x).toNat then 1 else 0)) ∧
    (∃ t, exec (.subn x y) s = .next t ∧
      ResultAndFlag s t x (((s.reg y).toNat + 256 - (s.reg x).toNat) % 256)
        (if (s.reg x).toNat ≤ (s.reg y).toNat then 1 else 0))

/-- `8xy6` and `8xyE` (R108, R110, R111): the operand (`V[x]`, or `V[y]` when `SHIFT_SRC = Y`; decision D14) is shifted by
one, and the bit that falls out goes to `VF`. -/
def Obligations.ShiftsByOneSetTheBitShiftedOut : Prop :=
  ∀ (s : State) (x y : Reg) (v : Nat),
    v = (if s.params.shiftSrc = .x then (s.reg x).toNat else (s.reg y).toNat) →
    (∃ t, exec (.shr x y) s = .next t ∧ ResultAndFlag s t x (v / 2) (v % 2)) ∧
    (∃ t, exec (.shl x y) s = .next t ∧ ResultAndFlag s t x (2 * v % 256) (v / 128))

/-- `cxnn` (R113; decision D7): the drawn byte, whatever it is, masked by `nn`; one draw per execution. -/
def Obligations.RandomByteIsDrawnOnceAndMasked : Prop :=
  ∀ (s : State) (x : Reg) (nn r : Byte),
    (s.params.rand = .draw ∧ r = Config.randByte s.draws ∨ s.params.rand = .const r) →
    ∃ t, exec (.rnd x nn) s = .next t ∧
      (∀ b, (t.reg x).getLsbD b = (r.getLsbD b && nn.getLsbD b)) ∧ t.draws = s.draws + 1 ∧
      RegsKeptExcept [x] s t ∧ Frame [.regs, .draws] s t

/-! ### Control transfer (40_flow.md) -/

/-- `1nnn` (R81): any 12-bit address, odd or even, becomes `PC` as it is. -/
def Obligations.JumpStoresItsAddress : Prop :=
  ∀ (s : State) (a : Addr), HasEncoding (.jp a) (0x1000 + a.toNat) ∧
    ∃ t, exec (.jp a) s = .next t ∧ t.pc.toNat = a.toNat ∧ Frame [.pc] s t

/-- `bnnn` (R87, R88; decision D3): `V[0] + addr`, up to 0x10FE, not reduced modulo 4096. -/
def Obligations.OffsetJumpAddsWithoutWrapping : Prop :=
  ∀ (s : State) (a : Addr), ∃ t, exec (.jpV0 a) s = .next t ∧ t.pc.toNat = (s.reg 0).toNat + a.toNat ∧
    t.pc.toNat ≤ 0x10FE ∧ Frame [.pc] s t

/-- `2nnn` (R82): on a full stack the recovered error `StackOverflow`, which has no effect but its report; otherwise the
post-advance `PC` is pushed and `addr` becomes `PC`. -/
def Obligations.CallPushesThePostAdvancePc : Prop :=
  ∀ (s : State) (a : Addr), HasEncoding (.call a) (0x2000 + a.toNat) ∧
    (s.sp = s.params.stackCapacity → ∃ t, exec (.call a) s = .next t ∧
      t.reports = s.reports ++ [⟨.stackOverflow, BitVec.ofNat 16 (0x2000 + a.toNat), s.pc - 2⟩] ∧
      Frame [.reports] s t) ∧
    (s.sp ≠ s.params.stackCapacity → ∃ t, exec (.call a) s = .next t ∧ t.pc.toNat = a.toNat ∧
      t.sp = s.sp + 1 ∧ (s.sp < s.stack.length → t.stack[s.sp]? = some s.pc) ∧
      (∀ k, k ≠ s.sp → t.stack[k]? = s.stack[k]?) ∧ Frame [.pc, .stack] s t)

/-- `00EE` (R80): on an empty stack the recovered error `StackUnderflow`, which has no effect but its report; otherwise the
top of the stack becomes `PC`, and the slot keeps its value. -/
def Obligations.ReturnPopsTheTopOfTheStack : Prop :=
  HasEncoding .ret 0x00EE ∧ ∀ s : State,
    (s.sp = 0 → ∃ t, exec .ret s = .next t ∧
      t.reports = s.reports ++ [⟨.stackUnderflow, 0x00EE, s.pc - 2⟩] ∧ Frame [.reports] s t) ∧
    (s.sp ≠ 0 → ∃ t, exec .ret s = .next t ∧ t.sp = s.sp - 1 ∧
      (∀ p, s.stack[s.sp - 1]? = some p → t.pc = p) ∧ t.stack = s.stack ∧ Frame [.pc, .stack] s t)

/-- Call and return round trip (R80; S9 of 95_test_vectors.md): "restores `program_counter` to the instruction after the
original call, and leaves the stack pointer unchanged from before the call". -/
def Obligations.ReturnAfterCallRestoresPcAndSp : Prop :=
  ∀ (s : State) (a : Addr) (p : Word), s.stack.length = s.params.stackCapacity →
    s.sp < s.params.stackCapacity →
    ∃ t u, exec (.call a) s = .next t ∧ exec .ret (t.setPc p) = .next u ∧ u.pc = s.pc ∧ u.sp = s.sp ∧
      Frame [.stack] s u ∧ ∀ k, k < s.sp → u.stack[k]? = s.stack[k]?

/-- The four skips on registers and immediates (R83, R84, R85, R86): a satisfied one adds 2 to the post-advance `PC`; the other low
nibbles of families 5 and 9 are unsupported. -/
def Obligations.SkipsAddTwoWhenTheirConditionHolds : Prop :=
  ∀ (s : State) (x y : Reg) (nn : Byte),
    (HasEncoding (.seImm x nn) (0x3000 + 0x100 * x.val + nn.toNat) ∧
      HasEncoding (.sneImm x nn) (0x4000 + 0x100 * x.val + nn.toNat) ∧
      HasEncoding (.seReg x y) (0x5000 + 0x100 * x.val + 0x10 * y.val) ∧
      HasEncoding (.sneReg x y) (0x9000 + 0x100 * x.val + 0x10 * y.val)) ∧
    (∀ n, 0 < n → n < 16 → decode (BitVec.ofNat 16 (0x5000 + 0x100 * x.val + 0x10 * y.val + n)) = none ∧
      decode (BitVec.ofNat 16 (0x9000 + 0x100 * x.val + 0x10 * y.val + n)) = none) ∧
    (∃ t, exec (.seImm x nn) s = .next t ∧ t.pc = (if s.reg x = nn then s.pc + 2 else s.pc) ∧ Frame [.pc] s t) ∧
    (∃ t, exec (.sneImm x nn) s = .next t ∧ t.pc = (if s.reg x = nn then s.pc else s.pc + 2) ∧ Frame [.pc] s t) ∧
    (∃ t, exec (.seReg x y) s = .next t ∧ t.pc = (if s.reg x = s.reg y then s.pc + 2 else s.pc) ∧
      Frame [.pc] s t) ∧
    (∃ t, exec (.sneReg x y) s = .next t ∧ t.pc = (if s.reg x = s.reg y then s.pc else s.pc + 2) ∧
      Frame [.pc] s t)

/-! ### Index register and memory transfer (42_index_mem.md) -/

/-- `annn` and `fx29` (R120, R122): the address; five times the low nibble, whatever the high nibble. -/
def Obligations.LoadIndexAndGlyphAddress : Prop :=
  (∀ (s : State) (a : Addr), HasEncoding (.ldI a) (0xA000 + a.toNat) ∧
    ∃ t, exec (.ldI a) s = .next t ∧ t.i = a ∧ Frame [.index] s t) ∧
  (∀ (s : State) (x : Reg), HasEncoding (.ldFont x) (0xF029 + 0x100 * x.val) ∧
    ∃ t, exec (.ldFont x) s = .next t ∧ t.i.toNat = 5 * ((s.reg x).toNat % 16) ∧ Frame [.index] s t)

/-- `fx1e` (R121; decision D2): the sum, without a flag, or the hard fault `OobIndex` when it is above 0xFFF. -/
def Obligations.AddToIndexFaultsAboveTwelveBits : Prop :=
  ∀ (s : State) (x : Reg),
    (s.i.toNat + (s.reg x).toNat ≤ 0xFFF → ∃ t, exec (.addI x) s = .next t ∧
      t.i.toNat = s.i.toNat + (s.reg x).toNat ∧ Frame [.index] s t) ∧
    (0xFFF < s.i.toNat + (s.reg x).toNat → exec (.addI x) s = .fault (.oobIndex (s.i.toNat + (s.reg x).toNat)))

/-- `fx33` (R123, R48; decision D1 for the fault): hundreds, tens and units at `I`, `I + 1` and `I + 2`, every other byte
as it was; or the hard fault `OobMemory`. -/
def Obligations.DecimalDigitsAreStoredAtIndex : Prop :=
  ∀ (s : State) (x : Reg),
    (s.i.toNat + 2 ≤ 0xFFF → ∃ t, exec (.bcd x) s = .next t ∧
      (s.mem.wf = true →
        (t.mem.read s.i.toNat).toNat = (s.reg x).toNat / 100 ∧
        (t.mem.read (s.i.toNat + 1)).toNat = (s.reg x).toNat / 10 % 10 ∧
        (t.mem.read (s.i.toNat + 2)).toNat = (s.reg x).toNat % 10) ∧
      (∀ a, a < s.i.toNat ∨ s.i.toNat + 2 < a → t.mem.read a = s.mem.read a) ∧ Frame [.memory] s t) ∧
    (0xFFF < s.i.toNat + 2 → exec (.bcd x) s = .fault (.oobMemory (s.i.toNat + 2)))

/-- `fx55` (R124, R48; decision D1 for the fault): `V[0]` .. `V[x]` at `I` .. `I + x`, every other byte as it was; or the
hard fault `OobMemory`. -/
def Obligations.RegistersAreStoredAtIndex : Prop :=
  ∀ (s : State) (x : Reg),
    (s.i.toNat + x.val ≤ 0xFFF → ∃ t, exec (.storeRegs x) s = .next t ∧
      (s.mem.wf = true → ∀ k : Reg, k ≤ x → t.mem.read (s.i.toNat + k.val) = s.reg k) ∧
      (∀ a, a < s.i.toNat ∨ s.i.toNat + x.val < a → t.mem.read a = s.mem.read a) ∧ Frame [.memory] s t) ∧
    (0xFFF < s.i.toNat + x.val → exec (.storeRegs x) s = .fault (.oobMemory (s.i.toNat + x.val)))

/-- `fx65` (R125, R48; decision D1 for the fault): `V[0]` .. `V[x]` from `I` .. `I + x`, "registers beyond `x` untouched"; or
the hard fault `OobMemory`. -/
def Obligations.RegistersAreLoadedFromIndex : Prop :=
  ∀ (s : State) (x : Reg),
    (s.i.toNat + x.val ≤ 0xFFF → ∃ t, exec (.loadRegs x) s = .next t ∧
      (∀ k : Reg, k ≤ x → t.reg k = s.mem.read (s.i.toNat + k.val)) ∧
      (∀ k : Reg, x < k → t.reg k = s.reg k) ∧ Frame [.regs] s t) ∧
    (0xFFF < s.i.toNat + x.val → exec (.loadRegs x) s = .fault (.oobMemory (s.i.toNat + x.val)))

/-- The round trip of S6 (R124, R125, R126): storing the registers and loading them back into any register array `v` at
the same `I` gives `V[0]` .. `V[x]` again, and the registers beyond `x` are those of `v`. -/
def Obligations.StoreThenLoadRestoresTheRegisters : Prop :=
  ∀ (s : State) (x : Reg) (v : Vector Byte 16), s.mem.wf = true → s.i.toNat + x.val ≤ 0xFFF →
    ∃ t u, exec (.storeRegs x) s = .next t ∧ exec (.loadRegs x) { t with v := v } = .next u ∧
      (∀ k : Reg, k ≤ x → u.reg k = s.reg k) ∧ (∀ k : Reg, x < k → u.reg k = v[k.val]) ∧ u.i = s.i

/-- Fetch coherence (R54): a fetch after `fx55` reads what it stored, at every place of the stored range; self-modifying
code is exact. -/
def Obligations.FetchSeesTheBytesJustStored : Prop :=
  ∀ (s : State) (x j k : Reg) (p : Word), s.mem.wf = true → s.i.toNat + x.val ≤ 0xFFF →
    k.val = j.val + 1 → k ≤ x → p.toNat = s.i.toNat + j.val → p.toNat % 2 = 0 →
    ∃ t, exec (.storeRegs x) s = .next t ∧ (t.setPc p).fetch = .ok (s.reg j ++ s.reg k)

/-! ### Display (43_display.md) -/

/-- `00E0` (R140): every pixel clear, `display_changed` true, nothing else. -/
def Obligations.ClearTurnsEveryPixelOff : Prop :=
  HasEncoding .cls 0x00E0 ∧ ∀ s : State, ∃ t, exec .cls s = .next t ∧ (∀ r c, t.disp.pixel r c = false) ∧ t.displayChanged = true ∧
    Frame [.display, .displayChanged] s t

/-- A `dxyn` can complete (R48, R144): its bytes lie in memory and its set bits on the screen. -/
def Sys2Proof.Machine.DrawInBounds (s : State) (x y : Reg) (n : Nibble) : Prop :=
  (n.toNat = 0 ∨ s.i.toNat + n.toNat - 1 ≤ 0xFFF) ∧
  ∀ c r, SpriteBit s n c r → (s.reg x).toNat + c ≤ 63 ∧ (s.reg y).toNat + r ≤ 31

/-- `dxyn` (R141, R142, R143; decisions D12 and D15): it inverts exactly the pixels that its set bits land on, with the
coordinates as they were before `VF` is written, and returns `display_changed` true. -/
def Obligations.DrawInvertsThePixelsOfTheSprite : Prop :=
  ∀ (s : State) (x y : Reg) (n : Nibble), DrawInBounds s x y n →
    ∃ t, exec (.drw x y n) s = .next t ∧
      (∀ c r, SpriteBit s n c r →
        t.disp.pixel ((s.reg y).toNat + r) ((s.reg x).toNat + c) =
          !s.disp.pixel ((s.reg y).toNat + r) ((s.reg x).toNat + c)) ∧
      (∀ R C, (¬∃ c r, SpriteBit s n c r ∧ C = (s.reg x).toNat + c ∧ R = (s.reg y).toNat + r) →
        t.disp.pixel R C = s.disp.pixel R C) ∧
      t.displayChanged = true ∧ RegsKeptExcept [15] s t ∧ Frame [.regs, .display, .displayChanged] s t

/-- The collision flag (R143): after a `dxyn` that completes, `VF` is 1 exactly when some pixel was set before it and is
clear after it, otherwise 0. -/
def Obligations.CollisionFlagTellsAPixelWentOff : Prop :=
  ∀ (s t : State) (x y : Reg) (n : Nibble), exec (.drw x y n) s = .next t →
    ((∃ r c, s.disp.pixel r c = true ∧ t.disp.pixel r c = false) → t.reg 15 = 1) ∧
    ((¬∃ r c, s.disp.pixel r c = true ∧ t.disp.pixel r c = false) → t.reg 15 = 0)

/-- The faults of `dxyn` (R141, R144, R178; decisions D1, D20): `OobMemory` first, then `OobDisplay` with a set bit that is off
the screen (which one of several is recorded is free, log entry 4). -/
def Obligations.DrawFaultsOffMemoryThenOffScreen : Prop :=
  ∀ (s : State) (x y : Reg) (n : Nibble),
    (0 < n.toNat → 0xFFF < s.i.toNat + n.toNat - 1 →
      exec (.drw x y n) s = .fault (.oobMemory (s.i.toNat + n.toNat - 1))) ∧
    ((n.toNat = 0 ∨ s.i.toNat + n.toNat - 1 ≤ 0xFFF) →
      (∃ c r, SpriteBit s n c r ∧ (63 < (s.reg x).toNat + c ∨ 31 < (s.reg y).toNat + r)) →
      ∃ c r, SpriteBit s n c r ∧ (63 < (s.reg x).toNat + c ∨ 31 < (s.reg y).toNat + r) ∧
        exec (.drw x y n) s = .fault (.oobDisplay ((s.reg x).toNat + c) ((s.reg y).toNat + r)))

/-- Drawing twice at the same place (S7; R141, R143): the second draw completes and the display is what it was; on a clear
screen the first draw sets `VF` to 0 and the second to 1, if the sprite has a set bit. (`x` and `y` are not `VF`,
which the first draw overwrites.) -/
def Obligations.DrawingTwiceRestoresTheDisplay : Prop :=
  ∀ (s : State) (x y : Reg) (n : Nibble), x ≠ 15 → y ≠ 15 → DrawInBounds s x y n →
    ∃ t u, exec (.drw x y n) s = .next t ∧ exec (.drw x y n) t = .next u ∧ u.disp = s.disp ∧
      ((∀ r c, s.disp.pixel r c = false) → t.reg 15 = 0 ∧
        ((∃ c r, SpriteBit s n c r) → u.reg 15 = 1))

/-! ### Keys and timers (44_keys_timers.md) -/

/-- `ex9e` and `exa1` (R150, R151; decision D5 for the fault): the key named by the VALUE of `V[x]` decides the skip; a value
above 15 is the hard fault `OobKey`, never masked. -/
def Obligations.KeySkipsReadTheLatch : Prop :=
  ∀ (s : State) (x : Reg),
    ((s.reg x).toNat ≤ 15 →
      (∃ t, exec (.skp x) s = .next t ∧
        t.pc = (if s.keys.pressed (s.reg x).toNat = true then s.pc + 2 else s.pc) ∧ Frame [.pc] s t) ∧
      (∃ t, exec (.sknp x) s = .next t ∧
        t.pc = (if s.keys.pressed (s.reg x).toNat = true then s.pc else s.pc + 2) ∧ Frame [.pc] s t)) ∧
    (15 < (s.reg x).toNat →
      exec (.skp x) s = .fault (.oobKey (s.reg x).toNat) ∧ exec (.sknp x) s = .fault (.oobKey (s.reg x).toNat))

/-- `fx0a` (R152; decision D24): it enters the wait for `V[x]` and does nothing else, whatever keys are pressed. -/
def Obligations.WaitKeyOnlyEntersTheWait : Prop :=
  ∀ (s : State) (x : Reg), ∃ t, exec (.waitKey x) s = .next t ∧ t.blocking = true ∧ t.target = x ∧
    Frame [.keyWait] s t

/-- `fx07`, `fx15` and `fx18` (R154, R155, R156): only setting the delay timer resets the reference instant. -/
def Obligations.TimerInstructionsMoveTheTimers : Prop :=
  ∀ (s : State) (x : Reg),
    (HasEncoding (.ldVxDt x) (0xF007 + 0x100 * x.val) ∧ HasEncoding (.ldDtVx x) (0xF015 + 0x100 * x.val) ∧
      HasEncoding (.ldStVx x) (0xF018 + 0x100 * x.val)) ∧
    (∃ t, exec (.ldVxDt x) s = .next t ∧ t.reg x = s.dt ∧ RegsKeptExcept [x] s t ∧ Frame [.regs] s t) ∧
    (∃ t, exec (.ldDtVx x) s = .next t ∧ t.dt = s.reg x ∧ t.dtRef = s.now ∧ Frame [.delayTimer, .dtRef] s t) ∧
    (∃ t, exec (.ldStVx x) s = .next t ∧ t.st = s.reg x ∧ Frame [.soundTimer] s t)

/-! ### HOST operations (60_exceptions.md) and load (70_reset_and_hazards.md) -/

/-- `set_inputs` (R188): the latch is replaced wholesale and nothing else changes; a pending wait is not resolved. -/
def Obligations.SetInputsReplacesTheLatchOnly : Prop :=
  ∀ (s : State) (k : Keys), (s.hostOp (.setInputs k)).keys = k ∧ Frame [.keys] s (s.hostOp (.setInputs k))

/-- HOST's turn before a step (R8; the schedule is this model's choice, log entry 2): the operations at the head of the
schedule, in order, and the head is taken off; with nothing scheduled HOST does nothing. The step itself takes
nothing else off, and HOST's turn changes nothing but the latch, the timers, `DT_REF` and the clock (R185). -/
def Obligations.HostTurnDoesTheScheduledOperations : Prop :=
  ∀ s : State,
    (s.schedule = [] → s.hostTurn = s) ∧
    (∀ ops rest, s.schedule = ops :: rest → s.hostTurn = ops.foldl State.hostOp (s.setSchedule rest)) ∧
    Frame [.keys, .delayTimer, .soundTimer, .dtRef, .clock, .schedule] s s.hostTurn ∧
    (∀ t, step s = .next t → t.schedule = s.schedule.tail ∧ t.keys = s.hostTurn.keys ∧ t.now = s.hostTurn.now)

/-- What one HOST operation may change (R8, R185): nothing but `KEYS`, `DT`, `ST`, `DT_REF` and the clock. The passing of
time adds `num / den` milliseconds to the clock and changes nothing else (R186; that the clock stands in the state
and moves so is this model's choice, log entry 5, as is that a denominator 0 adds nothing); `display()` returns
the display and changes nothing (R190). -/
def Obligations.HostOperationsChangeOnlyWhatTheyMay : Prop :=
  ∀ s : State,
    (∀ op, Frame [.keys, .delayTimer, .soundTimer, .dtRef, .clock] s (s.hostOp op)) ∧
    (∀ num den : Nat, Frame [.clock] s (s.hostOp (.advanceClock num den)) ∧
      (den ≠ 0 → ((s.hostOp (.advanceClock num den)).now.ms - s.now.ms) * den = num) ∧
      (den = 0 → (s.hostOp (.advanceClock num den)).now = s.now)) ∧
    s.hostOp .display = s ∧ s.display = s.disp

/-- The clock is non-decreasing and its values are non-negative (R186), over every step and over every call that HOST may
make, a second `load` and the calls on a machine that is not running among them; that the clock stands in the state,
and in the Session where no machine runs, is this model's choice (log entry 5). -/
def Obligations.TheClockNeverGoesBack : Prop :=
  (∀ s t : State, step s = .next t → s.now.ms ≤ t.now.ms) ∧
  (∀ (m : Session) (calls : List HostCall), 0 ≤ m.now.ms ∧ m.now.ms ≤ (calls.foldl Session.call m).now.ms)

/-- `age_timers` (R187; decisions D8, D9, D23): before one interval has passed since `DT_REF` nothing changes; afterwards each
timer counts down once, however long it was, stays at 0 if it is 0, and `DT_REF` becomes now. -/
def Obligations.AgeTimersDecrementsAtMostOnce : Prop :=
  ∀ s t : State, s.hostOp .ageTimers = t →
    (s.now.ms - s.dtRef.ms < s.params.cadence.ms → t = s) ∧
    (s.params.cadence.ms ≤ s.now.ms - s.dtRef.ms →
      (s.dt = 0 → t.dt = 0) ∧ (s.dt ≠ 0 → t.dt.toNat + 1 = s.dt.toNat) ∧
      (s.params.stAges = false ∨ s.st = 0 → t.st = s.st) ∧
      (s.params.stAges = true → s.st ≠ 0 → t.st.toNat + 1 = s.st.toNat) ∧
      t.dtRef = s.now ∧ Frame [.delayTimer, .soundTimer, .dtRef] s t)

/-- `load` fails with `InvalidProgram` exactly on an image of odd length, whatever its content (R202), and then there is no
Machine State and no step is possible. -/
def Obligations.LoadRefusesOddImages : Prop :=
  ∀ (p : Params) (font : Vector Byte 80) (now : Time) (image : List Byte) (m : Session),
    (load p font now image = .error .invalidProgram ↔ image.length % 2 = 1) ∧
    (image.length % 2 = 1 → m.call (.load p font image) = .empty m.now (some .invalidProgram) ∧
      (m.call (.load p font image)).call .step = .empty m.now (some .invalidProgram))

/-- `load` accepts every image of even length up to 3584 bytes (R200, R203; decisions D10, D17, D22) and makes the state of
R200: font, program, every other byte 0x00, all other fields zeroed, `PC` at 0x200, `DT_REF` at now; that
state meets the invariant; a longer image is refused. `State.reset` is that state for the empty image, the
default parameters and font, and the clock at 0 (the clock's origin and the empty image are this model's choices,
log entries 5 and 8). -/
def Obligations.LoadMakesTheResetState : Prop :=
  load defaultParams defaultFont clockOrigin [] = .ok State.reset ∧
  ∀ (p : Params) (font : Vector Byte 80) (now : Time) (image : List Byte), image.length % 2 = 0 →
    (3584 < image.length → load p font now image = .error .programTooLarge) ∧
    (image.length ≤ 3584 → ∃ s, load p font now image = .ok s ∧
      (∀ k (h : k < 80), s.mem.read k = font[k]) ∧
      (∀ k (h : k < image.length), s.mem.read (0x200 + k) = image[k]) ∧
      (∀ a, (80 ≤ a ∧ a < 0x200) ∨ 0x200 + image.length ≤ a → s.mem.read a = 0) ∧
      (∀ x, s.reg x = 0) ∧ s.i = 0 ∧ s.pc = 0x200 ∧ s.sp = 0 ∧
      s.stack = List.replicate p.stackCapacity 0 ∧ s.dt = 0 ∧ s.st = 0 ∧ s.dtRef = now ∧ s.now = now ∧
      (∀ r c, s.disp.pixel r c = false) ∧ (∀ k, s.keys.pressed k = false) ∧
      s.blocking = false ∧ s.target = 0 ∧ s.params = p ∧ s.reports = [] ∧
      s.Inv)

/-- A hard fault ends the run (R177; decision D20): a machine whose step answers a next state runs on from it, one whose
step answers a fault is faulted with it, no sequence of steps and HOST operations leaves that (time passes), a `load`
does, and then there is a fresh Machine State (R204; decision D32). The model's choices, on which the spec is silent:
that every `load` brings parameters and a font of its own (log entry 21), that it starts the count of random draws
again at 0 (log entry 22), and that the Session holds the clock where no machine runs (log entry 5). -/
def Obligations.HardFaultIsClearedOnlyByLoad : Prop :=
  (∀ s t : State, step s = .next t → (Session.running s).call .step = .running t) ∧
  (∀ (s : State) (f : Fault), step s = .fault f → (Session.running s).call .step = .faulted s.hostTurn.now f) ∧
  (∀ (s : State) (op : HostOp), (Session.running s).call (.op op) = .running (s.hostOp op)) ∧
  (∀ (c : Time) (f : Fault) (calls : List HostCall), (∀ k ∈ calls, ∀ p font image, k ≠ .load p font image) →
    ∃ c', calls.foldl Session.call (.faulted c f) = .faulted c' f) ∧
  (∀ (m : Session) (p : Params) (font : Vector Byte 80) (image : List Byte) (s : State),
    load p font m.now image = .ok s → m.call (.load p font image) = .running s) ∧
  (∀ (m : Session) (p : Params) (font : Vector Byte 80) (image : List Byte) (e : LoadError),
    load p font m.now image = .error e → m.call (.load p font image) = .empty m.now (some e))
end

