-- ==== Sys2Proof/Laws/Decode.lean ====
section
/-! SUPPORT. The fields of an encoded word are the fields it was made of, a word is made of its fields, and the masks
of the opcode map keep exactly the constant fields (30_encoding.md rules R61, R65). -/

namespace Sys2Proof

/-! ### Fields of encoded words -/

@[simp] theorem opField_encAddr (op : Nibble) (a : Addr) : opField (encAddr op a) = op := by
  ext k hk
  simp only [opField, encAddr, BitVec.getElem_extractLsb', BitVec.getLsbD_append]
  rw [if_neg (by omega)]
  simp [BitVec.getLsbD_eq_getElem hk]

@[simp] theorem addrField_encAddr (op : Nibble) (a : Addr) : addrField (encAddr op a) = a := by
  ext k hk
  simp only [addrField, encAddr, BitVec.getElem_extractLsb', BitVec.getLsbD_append]
  rw [if_pos (by omega)]
  simp [BitVec.getLsbD_eq_getElem hk]

/-- Format XNN is format ADDR with `addr = x ++ nn` (R61). -/
theorem encXNN_eq (op : Nibble) (x : Reg) (nn : Byte) :
    encXNN op x nn = encAddr op (BitVec.ofFin x ++ nn : Addr) := rfl

/-- Format XYN is format XNN with `nn = y ++ n` (R61). -/
theorem encXYN_eq (op : Nibble) (x y : Reg) (n : Nibble) :
    encXYN op x y n = encXNN op x (BitVec.ofFin y ++ n : Byte) := rfl

@[simp] theorem opField_encXNN (op : Nibble) (x : Reg) (nn : Byte) : opField (encXNN op x nn) = op := by
  rw [encXNN_eq, opField_encAddr]

@[simp] theorem xField_encXNN (op : Nibble) (x : Reg) (nn : Byte) : xField (encXNN op x nn) = x := by
  have h : (encXNN op x nn).extractLsb' 8 4 = BitVec.ofFin x := by
    ext k hk
    simp only [encXNN, BitVec.getElem_extractLsb', BitVec.getLsbD_append]
    rw [if_pos (by omega), if_neg (by omega)]
    simp [BitVec.getLsbD_eq_getElem hk]
  rw [xField, h]

@[simp] theorem nnField_encXNN (op : Nibble) (x : Reg) (nn : Byte) : nnField (encXNN op x nn) = nn := by
  ext k hk
  simp only [nnField, encXNN, BitVec.getElem_extractLsb', BitVec.getLsbD_append]
  rw [if_pos (by omega), if_pos (by omega)]
  simp [BitVec.getLsbD_eq_getElem hk]

@[simp] theorem opField_encXYN (op : Nibble) (x y : Reg) (n : Nibble) : opField (encXYN op x y n) = op := by
  rw [encXYN_eq, opField_encXNN]

@[simp] theorem xField_encXYN (op : Nibble) (x y : Reg) (n : Nibble) : xField (encXYN op x y n) = x := by
  rw [encXYN_eq, xField_encXNN]

@[simp] theorem yField_encXYN (op : Nibble) (x y : Reg) (n : Nibble) : yField (encXYN op x y n) = y := by
  have h : (encXYN op x y n).extractLsb' 4 4 = BitVec.ofFin y := by
    ext k hk
    simp only [encXYN, BitVec.getElem_extractLsb', BitVec.getLsbD_append]
    rw [if_pos (by omega), if_pos (by omega), if_neg (by omega)]
    simp [BitVec.getLsbD_eq_getElem hk]
  rw [yField, h]

@[simp] theorem nField_encXYN (op : Nibble) (x y : Reg) (n : Nibble) : nField (encXYN op x y n) = n := by
  ext k hk
  simp only [nField, encXYN, BitVec.getElem_extractLsb', BitVec.getLsbD_append]
  rw [if_pos (by omega), if_pos (by omega), if_pos (by omega)]
  simp [BitVec.getLsbD_eq_getElem hk]

/-! ### A word is made of its fields -/

theorem encAddr_fields (w : Word) : encAddr (opField w) (addrField w) = w := by
  refine BitVec.eq_of_getLsbD_eq fun k hk => ?_
  simp only [encAddr, opField, addrField, BitVec.getLsbD_append, BitVec.getLsbD_extractLsb']
  split
  · simp [*]
  · rw [show 12 + (k - 12) = k by omega]
    simp
    omega

theorem encXNN_fields (w : Word) : encXNN (opField w) (xField w) (nnField w) = w := by
  have h : (BitVec.ofFin (xField w) ++ nnField w : Addr) = addrField w := by
    ext k hk
    have hx : BitVec.ofFin (xField w) = w.extractLsb' 8 4 := rfl
    rw [hx]
    simp only [nnField, addrField, BitVec.getElem_append, BitVec.getElem_extractLsb']
    split
    · rfl
    · rw [show 8 + (k - 8) = 0 + k by omega]
  rw [encXNN_eq, h, encAddr_fields]

theorem encXYN_fields (w : Word) : encXYN (opField w) (xField w) (yField w) (nField w) = w := by
  have h : (BitVec.ofFin (yField w) ++ nField w : Byte) = nnField w := by
    ext k hk
    have hy : BitVec.ofFin (yField w) = w.extractLsb' 4 4 := rfl
    rw [hy]
    simp only [nField, nnField, BitVec.getElem_append, BitVec.getElem_extractLsb']
    split
    · rfl
    · rw [show 4 + (k - 4) = 0 + k by omega]
  rw [encXYN_eq, h, encXNN_fields]

/-! ### The masks of the opcode map -/

theorem encAddr_mask (op : Nibble) (a : Addr) : encAddr op a &&& 0xF000 = op ++ 0#12 := by
  rw [encAddr, show (0xF000 : Word) = (0xF : Nibble) ++ 0#12 by decide, BitVec.and_append,
    show (0xF : Nibble) = BitVec.allOnes 4 by decide, BitVec.and_allOnes, BitVec.and_zero]

theorem encXNN_mask (op : Nibble) (x : Reg) (nn : Byte) : encXNN op x nn &&& 0xF000 = op ++ 0#12 := by
  rw [encXNN_eq, encAddr_mask]

theorem encXNN_maskLow (op : Nibble) (x : Reg) (nn : Byte) :
    encXNN op x nn &&& 0xF0FF = op ++ (0#4 ++ nn : Addr) := by
  rw [encXNN, show (0xF0FF : Word) = (0xF : Nibble) ++ (0#4 ++ (0xFF : Byte) : Addr) by decide,
    BitVec.and_append, BitVec.and_append, show (0xF : Nibble) = BitVec.allOnes 4 by decide, BitVec.and_allOnes,
    BitVec.and_zero, show (0xFF : Byte) = BitVec.allOnes 8 by decide, BitVec.and_allOnes]

theorem encXYN_mask (op : Nibble) (x y : Reg) (n : Nibble) : encXYN op x y n &&& 0xF000 = op ++ 0#12 := by
  rw [encXYN_eq, encXNN_mask]

theorem encXYN_maskLow (op : Nibble) (x y : Reg) (n : Nibble) :
    encXYN op x y n &&& 0xF00F = op ++ (0#4 ++ (0#4 ++ n : Byte) : Addr) := by
  rw [encXYN, show (0xF00F : Word) = (0xF : Nibble) ++ (0#4 ++ (0#4 ++ (0xF : Nibble) : Byte) : Addr)
      by decide, BitVec.and_append, BitVec.and_append, BitVec.and_append,
    show (0xF : Nibble) = BitVec.allOnes 4 by decide, BitVec.and_allOnes, BitVec.and_zero, BitVec.and_zero,
    BitVec.and_allOnes]

end Sys2Proof
end

