-- ==== Sys2Proof/Laws/State.lean ====
section
/-! SUPPORT. One lemma per field per update of the state (the updates of Machine/Ops.lean), true by rfl. -/

namespace Sys2Proof.Machine

@[simp] theorem State.setReg_v (s : State) (x : Reg) (b : Byte) : (s.setReg x b).v = s.v.set x.val b x.isLt := rfl
@[simp] theorem State.setReg_i (s : State) (x : Reg) (b : Byte) : (s.setReg x b).i = s.i := rfl
@[simp] theorem State.setReg_pc (s : State) (x : Reg) (b : Byte) : (s.setReg x b).pc = s.pc := rfl
@[simp] theorem State.setReg_stack (s : State) (x : Reg) (b : Byte) : (s.setReg x b).stack = s.stack := rfl
@[simp] theorem State.setReg_sp (s : State) (x : Reg) (b : Byte) : (s.setReg x b).sp = s.sp := rfl
@[simp] theorem State.setReg_dt (s : State) (x : Reg) (b : Byte) : (s.setReg x b).dt = s.dt := rfl
@[simp] theorem State.setReg_st (s : State) (x : Reg) (b : Byte) : (s.setReg x b).st = s.st := rfl
@[simp] theorem State.setReg_dtRef (s : State) (x : Reg) (b : Byte) : (s.setReg x b).dtRef = s.dtRef := rfl
@[simp] theorem State.setReg_mem (s : State) (x : Reg) (b : Byte) : (s.setReg x b).mem = s.mem := rfl
@[simp] theorem State.setReg_disp (s : State) (x : Reg) (b : Byte) : (s.setReg x b).disp = s.disp := rfl
@[simp] theorem State.setReg_keys (s : State) (x : Reg) (b : Byte) : (s.setReg x b).keys = s.keys := rfl
@[simp] theorem State.setReg_blocking (s : State) (x : Reg) (b : Byte) : (s.setReg x b).blocking = s.blocking := rfl
@[simp] theorem State.setReg_target (s : State) (x : Reg) (b : Byte) : (s.setReg x b).target = s.target := rfl
@[simp] theorem State.setReg_params (s : State) (x : Reg) (b : Byte) : (s.setReg x b).params = s.params := rfl
@[simp] theorem State.setReg_now (s : State) (x : Reg) (b : Byte) : (s.setReg x b).now = s.now := rfl
@[simp] theorem State.setReg_draws (s : State) (x : Reg) (b : Byte) : (s.setReg x b).draws = s.draws := rfl
@[simp] theorem State.setReg_schedule (s : State) (x : Reg) (b : Byte) : (s.setReg x b).schedule = s.schedule := rfl
@[simp] theorem State.setReg_reports (s : State) (x : Reg) (b : Byte) : (s.setReg x b).reports = s.reports := rfl
@[simp] theorem State.setReg_displayChanged (s : State) (x : Reg) (b : Byte) : (s.setReg x b).displayChanged = s.displayChanged := rfl

@[simp] theorem State.setI_v (s : State) (a : Addr) : (s.setI a).v = s.v := rfl
@[simp] theorem State.setI_i (s : State) (a : Addr) : (s.setI a).i = a := rfl
@[simp] theorem State.setI_pc (s : State) (a : Addr) : (s.setI a).pc = s.pc := rfl
@[simp] theorem State.setI_stack (s : State) (a : Addr) : (s.setI a).stack = s.stack := rfl
@[simp] theorem State.setI_sp (s : State) (a : Addr) : (s.setI a).sp = s.sp := rfl
@[simp] theorem State.setI_dt (s : State) (a : Addr) : (s.setI a).dt = s.dt := rfl
@[simp] theorem State.setI_st (s : State) (a : Addr) : (s.setI a).st = s.st := rfl
@[simp] theorem State.setI_dtRef (s : State) (a : Addr) : (s.setI a).dtRef = s.dtRef := rfl
@[simp] theorem State.setI_mem (s : State) (a : Addr) : (s.setI a).mem = s.mem := rfl
@[simp] theorem State.setI_disp (s : State) (a : Addr) : (s.setI a).disp = s.disp := rfl
@[simp] theorem State.setI_keys (s : State) (a : Addr) : (s.setI a).keys = s.keys := rfl
@[simp] theorem State.setI_blocking (s : State) (a : Addr) : (s.setI a).blocking = s.blocking := rfl
@[simp] theorem State.setI_target (s : State) (a : Addr) : (s.setI a).target = s.target := rfl
@[simp] theorem State.setI_params (s : State) (a : Addr) : (s.setI a).params = s.params := rfl
@[simp] theorem State.setI_now (s : State) (a : Addr) : (s.setI a).now = s.now := rfl
@[simp] theorem State.setI_draws (s : State) (a : Addr) : (s.setI a).draws = s.draws := rfl
@[simp] theorem State.setI_schedule (s : State) (a : Addr) : (s.setI a).schedule = s.schedule := rfl
@[simp] theorem State.setI_reports (s : State) (a : Addr) : (s.setI a).reports = s.reports := rfl
@[simp] theorem State.setI_displayChanged (s : State) (a : Addr) : (s.setI a).displayChanged = s.displayChanged := rfl
@[simp] theorem State.setI_reg (s : State) (a : Addr) (j : Reg) : (s.setI a).reg j = s.reg j := rfl

@[simp] theorem State.setPc_v (s : State) (p : Word) : (s.setPc p).v = s.v := rfl
@[simp] theorem State.setPc_i (s : State) (p : Word) : (s.setPc p).i = s.i := rfl
@[simp] theorem State.setPc_pc (s : State) (p : Word) : (s.setPc p).pc = p := rfl
@[simp] theorem State.setPc_stack (s : State) (p : Word) : (s.setPc p).stack = s.stack := rfl
@[simp] theorem State.setPc_sp (s : State) (p : Word) : (s.setPc p).sp = s.sp := rfl
@[simp] theorem State.setPc_dt (s : State) (p : Word) : (s.setPc p).dt = s.dt := rfl
@[simp] theorem State.setPc_st (s : State) (p : Word) : (s.setPc p).st = s.st := rfl
@[simp] theorem State.setPc_dtRef (s : State) (p : Word) : (s.setPc p).dtRef = s.dtRef := rfl
@[simp] theorem State.setPc_mem (s : State) (p : Word) : (s.setPc p).mem = s.mem := rfl
@[simp] theorem State.setPc_disp (s : State) (p : Word) : (s.setPc p).disp = s.disp := rfl
@[simp] theorem State.setPc_keys (s : State) (p : Word) : (s.setPc p).keys = s.keys := rfl
@[simp] theorem State.setPc_blocking (s : State) (p : Word) : (s.setPc p).blocking = s.blocking := rfl
@[simp] theorem State.setPc_target (s : State) (p : Word) : (s.setPc p).target = s.target := rfl
@[simp] theorem State.setPc_params (s : State) (p : Word) : (s.setPc p).params = s.params := rfl
@[simp] theorem State.setPc_now (s : State) (p : Word) : (s.setPc p).now = s.now := rfl
@[simp] theorem State.setPc_draws (s : State) (p : Word) : (s.setPc p).draws = s.draws := rfl
@[simp] theorem State.setPc_schedule (s : State) (p : Word) : (s.setPc p).schedule = s.schedule := rfl
@[simp] theorem State.setPc_reports (s : State) (p : Word) : (s.setPc p).reports = s.reports := rfl
@[simp] theorem State.setPc_displayChanged (s : State) (p : Word) : (s.setPc p).displayChanged = s.displayChanged := rfl
@[simp] theorem State.setPc_reg (s : State) (p : Word) (j : Reg) : (s.setPc p).reg j = s.reg j := rfl

@[simp] theorem State.push_v (s : State) (p : Word) : (s.push p).v = s.v := rfl
@[simp] theorem State.push_i (s : State) (p : Word) : (s.push p).i = s.i := rfl
@[simp] theorem State.push_pc (s : State) (p : Word) : (s.push p).pc = s.pc := rfl
@[simp] theorem State.push_stack (s : State) (p : Word) : (s.push p).stack = s.stack.set s.sp p := rfl
@[simp] theorem State.push_sp (s : State) (p : Word) : (s.push p).sp = s.sp + 1 := rfl
@[simp] theorem State.push_dt (s : State) (p : Word) : (s.push p).dt = s.dt := rfl
@[simp] theorem State.push_st (s : State) (p : Word) : (s.push p).st = s.st := rfl
@[simp] theorem State.push_dtRef (s : State) (p : Word) : (s.push p).dtRef = s.dtRef := rfl
@[simp] theorem State.push_mem (s : State) (p : Word) : (s.push p).mem = s.mem := rfl
@[simp] theorem State.push_disp (s : State) (p : Word) : (s.push p).disp = s.disp := rfl
@[simp] theorem State.push_keys (s : State) (p : Word) : (s.push p).keys = s.keys := rfl
@[simp] theorem State.push_blocking (s : State) (p : Word) : (s.push p).blocking = s.blocking := rfl
@[simp] theorem State.push_target (s : State) (p : Word) : (s.push p).target = s.target := rfl
@[simp] theorem State.push_params (s : State) (p : Word) : (s.push p).params = s.params := rfl
@[simp] theorem State.push_now (s : State) (p : Word) : (s.push p).now = s.now := rfl
@[simp] theorem State.push_draws (s : State) (p : Word) : (s.push p).draws = s.draws := rfl
@[simp] theorem State.push_schedule (s : State) (p : Word) : (s.push p).schedule = s.schedule := rfl
@[simp] theorem State.push_reports (s : State) (p : Word) : (s.push p).reports = s.reports := rfl
@[simp] theorem State.push_displayChanged (s : State) (p : Word) : (s.push p).displayChanged = s.displayChanged := rfl
@[simp] theorem State.push_reg (s : State) (p : Word) (j : Reg) : (s.push p).reg j = s.reg j := rfl

@[simp] theorem State.pop_v (s : State) : (s.pop).v = s.v := rfl
@[simp] theorem State.pop_i (s : State) : (s.pop).i = s.i := rfl
@[simp] theorem State.pop_pc (s : State) : (s.pop).pc = s.pc := rfl
@[simp] theorem State.pop_stack (s : State) : (s.pop).stack = s.stack := rfl
@[simp] theorem State.pop_sp (s : State) : (s.pop).sp = s.sp - 1 := rfl
@[simp] theorem State.pop_dt (s : State) : (s.pop).dt = s.dt := rfl
@[simp] theorem State.pop_st (s : State) : (s.pop).st = s.st := rfl
@[simp] theorem State.pop_dtRef (s : State) : (s.pop).dtRef = s.dtRef := rfl
@[simp] theorem State.pop_mem (s : State) : (s.pop).mem = s.mem := rfl
@[simp] theorem State.pop_disp (s : State) : (s.pop).disp = s.disp := rfl
@[simp] theorem State.pop_keys (s : State) : (s.pop).keys = s.keys := rfl
@[simp] theorem State.pop_blocking (s : State) : (s.pop).blocking = s.blocking := rfl
@[simp] theorem State.pop_target (s : State) : (s.pop).target = s.target := rfl
@[simp] theorem State.pop_params (s : State) : (s.pop).params = s.params := rfl
@[simp] theorem State.pop_now (s : State) : (s.pop).now = s.now := rfl
@[simp] theorem State.pop_draws (s : State) : (s.pop).draws = s.draws := rfl
@[simp] theorem State.pop_schedule (s : State) : (s.pop).schedule = s.schedule := rfl
@[simp] theorem State.pop_reports (s : State) : (s.pop).reports = s.reports := rfl
@[simp] theorem State.pop_displayChanged (s : State) : (s.pop).displayChanged = s.displayChanged := rfl
@[simp] theorem State.pop_reg (s : State) (j : Reg) : (s.pop).reg j = s.reg j := rfl

@[simp] theorem State.setDt_v (s : State) (b : Byte) : (s.setDt b).v = s.v := rfl
@[simp] theorem State.setDt_i (s : State) (b : Byte) : (s.setDt b).i = s.i := rfl
@[simp] theorem State.setDt_pc (s : State) (b : Byte) : (s.setDt b).pc = s.pc := rfl
@[simp] theorem State.setDt_stack (s : State) (b : Byte) : (s.setDt b).stack = s.stack := rfl
@[simp] theorem State.setDt_sp (s : State) (b : Byte) : (s.setDt b).sp = s.sp := rfl
@[simp] theorem State.setDt_dt (s : State) (b : Byte) : (s.setDt b).dt = b := rfl
@[simp] theorem State.setDt_st (s : State) (b : Byte) : (s.setDt b).st = s.st := rfl
@[simp] theorem State.setDt_dtRef (s : State) (b : Byte) : (s.setDt b).dtRef = s.dtRef := rfl
@[simp] theorem State.setDt_mem (s : State) (b : Byte) : (s.setDt b).mem = s.mem := rfl
@[simp] theorem State.setDt_disp (s : State) (b : Byte) : (s.setDt b).disp = s.disp := rfl
@[simp] theorem State.setDt_keys (s : State) (b : Byte) : (s.setDt b).keys = s.keys := rfl
@[simp] theorem State.setDt_blocking (s : State) (b : Byte) : (s.setDt b).blocking = s.blocking := rfl
@[simp] theorem State.setDt_target (s : State) (b : Byte) : (s.setDt b).target = s.target := rfl
@[simp] theorem State.setDt_params (s : State) (b : Byte) : (s.setDt b).params = s.params := rfl
@[simp] theorem State.setDt_now (s : State) (b : Byte) : (s.setDt b).now = s.now := rfl
@[simp] theorem State.setDt_draws (s : State) (b : Byte) : (s.setDt b).draws = s.draws := rfl
@[simp] theorem State.setDt_schedule (s : State) (b : Byte) : (s.setDt b).schedule = s.schedule := rfl
@[simp] theorem State.setDt_reports (s : State) (b : Byte) : (s.setDt b).reports = s.reports := rfl
@[simp] theorem State.setDt_displayChanged (s : State) (b : Byte) : (s.setDt b).displayChanged = s.displayChanged := rfl
@[simp] theorem State.setDt_reg (s : State) (b : Byte) (j : Reg) : (s.setDt b).reg j = s.reg j := rfl

@[simp] theorem State.setSt_v (s : State) (b : Byte) : (s.setSt b).v = s.v := rfl
@[simp] theorem State.setSt_i (s : State) (b : Byte) : (s.setSt b).i = s.i := rfl
@[simp] theorem State.setSt_pc (s : State) (b : Byte) : (s.setSt b).pc = s.pc := rfl
@[simp] theorem State.setSt_stack (s : State) (b : Byte) : (s.setSt b).stack = s.stack := rfl
@[simp] theorem State.setSt_sp (s : State) (b : Byte) : (s.setSt b).sp = s.sp := rfl
@[simp] theorem State.setSt_dt (s : State) (b : Byte) : (s.setSt b).dt = s.dt := rfl
@[simp] theorem State.setSt_st (s : State) (b : Byte) : (s.setSt b).st = b := rfl
@[simp] theorem State.setSt_dtRef (s : State) (b : Byte) : (s.setSt b).dtRef = s.dtRef := rfl
@[simp] theorem State.setSt_mem (s : State) (b : Byte) : (s.setSt b).mem = s.mem := rfl
@[simp] theorem State.setSt_disp (s : State) (b : Byte) : (s.setSt b).disp = s.disp := rfl
@[simp] theorem State.setSt_keys (s : State) (b : Byte) : (s.setSt b).keys = s.keys := rfl
@[simp] theorem State.setSt_blocking (s : State) (b : Byte) : (s.setSt b).blocking = s.blocking := rfl
@[simp] theorem State.setSt_target (s : State) (b : Byte) : (s.setSt b).target = s.target := rfl
@[simp] theorem State.setSt_params (s : State) (b : Byte) : (s.setSt b).params = s.params := rfl
@[simp] theorem State.setSt_now (s : State) (b : Byte) : (s.setSt b).now = s.now := rfl
@[simp] theorem State.setSt_draws (s : State) (b : Byte) : (s.setSt b).draws = s.draws := rfl
@[simp] theorem State.setSt_schedule (s : State) (b : Byte) : (s.setSt b).schedule = s.schedule := rfl
@[simp] theorem State.setSt_reports (s : State) (b : Byte) : (s.setSt b).reports = s.reports := rfl
@[simp] theorem State.setSt_displayChanged (s : State) (b : Byte) : (s.setSt b).displayChanged = s.displayChanged := rfl
@[simp] theorem State.setSt_reg (s : State) (b : Byte) (j : Reg) : (s.setSt b).reg j = s.reg j := rfl

@[simp] theorem State.setDtRef_v (s : State) (t : Time) : (s.setDtRef t).v = s.v := rfl
@[simp] theorem State.setDtRef_i (s : State) (t : Time) : (s.setDtRef t).i = s.i := rfl
@[simp] theorem State.setDtRef_pc (s : State) (t : Time) : (s.setDtRef t).pc = s.pc := rfl
@[simp] theorem State.setDtRef_stack (s : State) (t : Time) : (s.setDtRef t).stack = s.stack := rfl
@[simp] theorem State.setDtRef_sp (s : State) (t : Time) : (s.setDtRef t).sp = s.sp := rfl
@[simp] theorem State.setDtRef_dt (s : State) (t : Time) : (s.setDtRef t).dt = s.dt := rfl
@[simp] theorem State.setDtRef_st (s : State) (t : Time) : (s.setDtRef t).st = s.st := rfl
@[simp] theorem State.setDtRef_dtRef (s : State) (t : Time) : (s.setDtRef t).dtRef = t := rfl
@[simp] theorem State.setDtRef_mem (s : State) (t : Time) : (s.setDtRef t).mem = s.mem := rfl
@[simp] theorem State.setDtRef_disp (s : State) (t : Time) : (s.setDtRef t).disp = s.disp := rfl
@[simp] theorem State.setDtRef_keys (s : State) (t : Time) : (s.setDtRef t).keys = s.keys := rfl
@[simp] theorem State.setDtRef_blocking (s : State) (t : Time) : (s.setDtRef t).blocking = s.blocking := rfl
@[simp] theorem State.setDtRef_target (s : State) (t : Time) : (s.setDtRef t).target = s.target := rfl
@[simp] theorem State.setDtRef_params (s : State) (t : Time) : (s.setDtRef t).params = s.params := rfl
@[simp] theorem State.setDtRef_now (s : State) (t : Time) : (s.setDtRef t).now = s.now := rfl
@[simp] theorem State.setDtRef_draws (s : State) (t : Time) : (s.setDtRef t).draws = s.draws := rfl
@[simp] theorem State.setDtRef_schedule (s : State) (t : Time) : (s.setDtRef t).schedule = s.schedule := rfl
@[simp] theorem State.setDtRef_reports (s : State) (t : Time) : (s.setDtRef t).reports = s.reports := rfl
@[simp] theorem State.setDtRef_displayChanged (s : State) (t : Time) : (s.setDtRef t).displayChanged = s.displayChanged := rfl
@[simp] theorem State.setDtRef_reg (s : State) (t : Time) (j : Reg) : (s.setDtRef t).reg j = s.reg j := rfl

@[simp] theorem State.setMem_v (s : State) (m : Memory) : (s.setMem m).v = s.v := rfl
@[simp] theorem State.setMem_i (s : State) (m : Memory) : (s.setMem m).i = s.i := rfl
@[simp] theorem State.setMem_pc (s : State) (m : Memory) : (s.setMem m).pc = s.pc := rfl
@[simp] theorem State.setMem_stack (s : State) (m : Memory) : (s.setMem m).stack = s.stack := rfl
@[simp] theorem State.setMem_sp (s : State) (m : Memory) : (s.setMem m).sp = s.sp := rfl
@[simp] theorem State.setMem_dt (s : State) (m : Memory) : (s.setMem m).dt = s.dt := rfl
@[simp] theorem State.setMem_st (s : State) (m : Memory) : (s.setMem m).st = s.st := rfl
@[simp] theorem State.setMem_dtRef (s : State) (m : Memory) : (s.setMem m).dtRef = s.dtRef := rfl
@[simp] theorem State.setMem_mem (s : State) (m : Memory) : (s.setMem m).mem = m := rfl
@[simp] theorem State.setMem_disp (s : State) (m : Memory) : (s.setMem m).disp = s.disp := rfl
@[simp] theorem State.setMem_keys (s : State) (m : Memory) : (s.setMem m).keys = s.keys := rfl
@[simp] theorem State.setMem_blocking (s : State) (m : Memory) : (s.setMem m).blocking = s.blocking := rfl
@[simp] theorem State.setMem_target (s : State) (m : Memory) : (s.setMem m).target = s.target := rfl
@[simp] theorem State.setMem_params (s : State) (m : Memory) : (s.setMem m).params = s.params := rfl
@[simp] theorem State.setMem_now (s : State) (m : Memory) : (s.setMem m).now = s.now := rfl
@[simp] theorem State.setMem_draws (s : State) (m : Memory) : (s.setMem m).draws = s.draws := rfl
@[simp] theorem State.setMem_schedule (s : State) (m : Memory) : (s.setMem m).schedule = s.schedule := rfl
@[simp] theorem State.setMem_reports (s : State) (m : Memory) : (s.setMem m).reports = s.reports := rfl
@[simp] theorem State.setMem_displayChanged (s : State) (m : Memory) : (s.setMem m).displayChanged = s.displayChanged := rfl
@[simp] theorem State.setMem_reg (s : State) (m : Memory) (j : Reg) : (s.setMem m).reg j = s.reg j := rfl

@[simp] theorem State.drawn_v (s : State) (d : Display) : (s.drawn d).v = s.v := rfl
@[simp] theorem State.drawn_i (s : State) (d : Display) : (s.drawn d).i = s.i := rfl
@[simp] theorem State.drawn_pc (s : State) (d : Display) : (s.drawn d).pc = s.pc := rfl
@[simp] theorem State.drawn_stack (s : State) (d : Display) : (s.drawn d).stack = s.stack := rfl
@[simp] theorem State.drawn_sp (s : State) (d : Display) : (s.drawn d).sp = s.sp := rfl
@[simp] theorem State.drawn_dt (s : State) (d : Display) : (s.drawn d).dt = s.dt := rfl
@[simp] theorem State.drawn_st (s : State) (d : Display) : (s.drawn d).st = s.st := rfl
@[simp] theorem State.drawn_dtRef (s : State) (d : Display) : (s.drawn d).dtRef = s.dtRef := rfl
@[simp] theorem State.drawn_mem (s : State) (d : Display) : (s.drawn d).mem = s.mem := rfl
@[simp] theorem State.drawn_disp (s : State) (d : Display) : (s.drawn d).disp = d := rfl
@[simp] theorem State.drawn_keys (s : State) (d : Display) : (s.drawn d).keys = s.keys := rfl
@[simp] theorem State.drawn_blocking (s : State) (d : Display) : (s.drawn d).blocking = s.blocking := rfl
@[simp] theorem State.drawn_target (s : State) (d : Display) : (s.drawn d).target = s.target := rfl
@[simp] theorem State.drawn_params (s : State) (d : Display) : (s.drawn d).params = s.params := rfl
@[simp] theorem State.drawn_now (s : State) (d : Display) : (s.drawn d).now = s.now := rfl
@[simp] theorem State.drawn_draws (s : State) (d : Display) : (s.drawn d).draws = s.draws := rfl
@[simp] theorem State.drawn_schedule (s : State) (d : Display) : (s.drawn d).schedule = s.schedule := rfl
@[simp] theorem State.drawn_reports (s : State) (d : Display) : (s.drawn d).reports = s.reports := rfl
@[simp] theorem State.drawn_displayChanged (s : State) (d : Display) : (s.drawn d).displayChanged = true := rfl
@[simp] theorem State.drawn_reg (s : State) (d : Display) (j : Reg) : (s.drawn d).reg j = s.reg j := rfl

@[simp] theorem State.setKeys_v (s : State) (k : Keys) : (s.setKeys k).v = s.v := rfl
@[simp] theorem State.setKeys_i (s : State) (k : Keys) : (s.setKeys k).i = s.i := rfl
@[simp] theorem State.setKeys_pc (s : State) (k : Keys) : (s.setKeys k).pc = s.pc := rfl
@[simp] theorem State.setKeys_stack (s : State) (k : Keys) : (s.setKeys k).stack = s.stack := rfl
@[simp] theorem State.setKeys_sp (s : State) (k : Keys) : (s.setKeys k).sp = s.sp := rfl
@[simp] theorem State.setKeys_dt (s : State) (k : Keys) : (s.setKeys k).dt = s.dt := rfl
@[simp] theorem State.setKeys_st (s : State) (k : Keys) : (s.setKeys k).st = s.st := rfl
@[simp] theorem State.setKeys_dtRef (s : State) (k : Keys) : (s.setKeys k).dtRef = s.dtRef := rfl
@[simp] theorem State.setKeys_mem (s : State) (k : Keys) : (s.setKeys k).mem = s.mem := rfl
@[simp] theorem State.setKeys_disp (s : State) (k : Keys) : (s.setKeys k).disp = s.disp := rfl
@[simp] theorem State.setKeys_keys (s : State) (k : Keys) : (s.setKeys k).keys = k := rfl
@[simp] theorem State.setKeys_blocking (s : State) (k : Keys) : (s.setKeys k).blocking = s.blocking := rfl
@[simp] theorem State.setKeys_target (s : State) (k : Keys) : (s.setKeys k).target = s.target := rfl
@[simp] theorem State.setKeys_params (s : State) (k : Keys) : (s.setKeys k).params = s.params := rfl
@[simp] theorem State.setKeys_now (s : State) (k : Keys) : (s.setKeys k).now = s.now := rfl
@[simp] theorem State.setKeys_draws (s : State) (k : Keys) : (s.setKeys k).draws = s.draws := rfl
@[simp] theorem State.setKeys_schedule (s : State) (k : Keys) : (s.setKeys k).schedule = s.schedule := rfl
@[simp] theorem State.setKeys_reports (s : State) (k : Keys) : (s.setKeys k).reports = s.reports := rfl
@[simp] theorem State.setKeys_displayChanged (s : State) (k : Keys) : (s.setKeys k).displayChanged = s.displayChanged := rfl
@[simp] theorem State.setKeys_reg (s : State) (k : Keys) (j : Reg) : (s.setKeys k).reg j = s.reg j := rfl

@[simp] theorem State.enterWait_v (s : State) (x : Reg) : (s.enterWait x).v = s.v := rfl
@[simp] theorem State.enterWait_i (s : State) (x : Reg) : (s.enterWait x).i = s.i := rfl
@[simp] theorem State.enterWait_pc (s : State) (x : Reg) : (s.enterWait x).pc = s.pc := rfl
@[simp] theorem State.enterWait_stack (s : State) (x : Reg) : (s.enterWait x).stack = s.stack := rfl
@[simp] theorem State.enterWait_sp (s : State) (x : Reg) : (s.enterWait x).sp = s.sp := rfl
@[simp] theorem State.enterWait_dt (s : State) (x : Reg) : (s.enterWait x).dt = s.dt := rfl
@[simp] theorem State.enterWait_st (s : State) (x : Reg) : (s.enterWait x).st = s.st := rfl
@[simp] theorem State.enterWait_dtRef (s : State) (x : Reg) : (s.enterWait x).dtRef = s.dtRef := rfl
@[simp] theorem State.enterWait_mem (s : State) (x : Reg) : (s.enterWait x).mem = s.mem := rfl
@[simp] theorem State.enterWait_disp (s : State) (x : Reg) : (s.enterWait x).disp = s.disp := rfl
@[simp] theorem State.enterWait_keys (s : State) (x : Reg) : (s.enterWait x).keys = s.keys := rfl
@[simp] theorem State.enterWait_blocking (s : State) (x : Reg) : (s.enterWait x).blocking = true := rfl
@[simp] theorem State.enterWait_target (s : State) (x : Reg) : (s.enterWait x).target = x := rfl
@[simp] theorem State.enterWait_params (s : State) (x : Reg) : (s.enterWait x).params = s.params := rfl
@[simp] theorem State.enterWait_now (s : State) (x : Reg) : (s.enterWait x).now = s.now := rfl
@[simp] theorem State.enterWait_draws (s : State) (x : Reg) : (s.enterWait x).draws = s.draws := rfl
@[simp] theorem State.enterWait_schedule (s : State) (x : Reg) : (s.enterWait x).schedule = s.schedule := rfl
@[simp] theorem State.enterWait_reports (s : State) (x : Reg) : (s.enterWait x).reports = s.reports := rfl
@[simp] theorem State.enterWait_displayChanged (s : State) (x : Reg) : (s.enterWait x).displayChanged = s.displayChanged := rfl
@[simp] theorem State.enterWait_reg (s : State) (x : Reg) (j : Reg) : (s.enterWait x).reg j = s.reg j := rfl

@[simp] theorem State.leaveWait_v (s : State) : (s.leaveWait).v = s.v := rfl
@[simp] theorem State.leaveWait_i (s : State) : (s.leaveWait).i = s.i := rfl
@[simp] theorem State.leaveWait_pc (s : State) : (s.leaveWait).pc = s.pc := rfl
@[simp] theorem State.leaveWait_stack (s : State) : (s.leaveWait).stack = s.stack := rfl
@[simp] theorem State.leaveWait_sp (s : State) : (s.leaveWait).sp = s.sp := rfl
@[simp] theorem State.leaveWait_dt (s : State) : (s.leaveWait).dt = s.dt := rfl
@[simp] theorem State.leaveWait_st (s : State) : (s.leaveWait).st = s.st := rfl
@[simp] theorem State.leaveWait_dtRef (s : State) : (s.leaveWait).dtRef = s.dtRef := rfl
@[simp] theorem State.leaveWait_mem (s : State) : (s.leaveWait).mem = s.mem := rfl
@[simp] theorem State.leaveWait_disp (s : State) : (s.leaveWait).disp = s.disp := rfl
@[simp] theorem State.leaveWait_keys (s : State) : (s.leaveWait).keys = s.keys := rfl
@[simp] theorem State.leaveWait_blocking (s : State) : (s.leaveWait).blocking = false := rfl
@[simp] theorem State.leaveWait_target (s : State) : (s.leaveWait).target = s.target := rfl
@[simp] theorem State.leaveWait_params (s : State) : (s.leaveWait).params = s.params := rfl
@[simp] theorem State.leaveWait_now (s : State) : (s.leaveWait).now = s.now := rfl
@[simp] theorem State.leaveWait_draws (s : State) : (s.leaveWait).draws = s.draws := rfl
@[simp] theorem State.leaveWait_schedule (s : State) : (s.leaveWait).schedule = s.schedule := rfl
@[simp] theorem State.leaveWait_reports (s : State) : (s.leaveWait).reports = s.reports := rfl
@[simp] theorem State.leaveWait_displayChanged (s : State) : (s.leaveWait).displayChanged = s.displayChanged := rfl
@[simp] theorem State.leaveWait_reg (s : State) (j : Reg) : (s.leaveWait).reg j = s.reg j := rfl

@[simp] theorem State.noteDraw_v (s : State) : (s.noteDraw).v = s.v := rfl
@[simp] theorem State.noteDraw_i (s : State) : (s.noteDraw).i = s.i := rfl
@[simp] theorem State.noteDraw_pc (s : State) : (s.noteDraw).pc = s.pc := rfl
@[simp] theorem State.noteDraw_stack (s : State) : (s.noteDraw).stack = s.stack := rfl
@[simp] theorem State.noteDraw_sp (s : State) : (s.noteDraw).sp = s.sp := rfl
@[simp] theorem State.noteDraw_dt (s : State) : (s.noteDraw).dt = s.dt := rfl
@[simp] theorem State.noteDraw_st (s : State) : (s.noteDraw).st = s.st := rfl
@[simp] theorem State.noteDraw_dtRef (s : State) : (s.noteDraw).dtRef = s.dtRef := rfl
@[simp] theorem State.noteDraw_mem (s : State) : (s.noteDraw).mem = s.mem := rfl
@[simp] theorem State.noteDraw_disp (s : State) : (s.noteDraw).disp = s.disp := rfl
@[simp] theorem State.noteDraw_keys (s : State) : (s.noteDraw).keys = s.keys := rfl
@[simp] theorem State.noteDraw_blocking (s : State) : (s.noteDraw).blocking = s.blocking := rfl
@[simp] theorem State.noteDraw_target (s : State) : (s.noteDraw).target = s.target := rfl
@[simp] theorem State.noteDraw_params (s : State) : (s.noteDraw).params = s.params := rfl
@[simp] theorem State.noteDraw_now (s : State) : (s.noteDraw).now = s.now := rfl
@[simp] theorem State.noteDraw_draws (s : State) : (s.noteDraw).draws = s.draws + 1 := rfl
@[simp] theorem State.noteDraw_schedule (s : State) : (s.noteDraw).schedule = s.schedule := rfl
@[simp] theorem State.noteDraw_reports (s : State) : (s.noteDraw).reports = s.reports := rfl
@[simp] theorem State.noteDraw_displayChanged (s : State) : (s.noteDraw).displayChanged = s.displayChanged := rfl
@[simp] theorem State.noteDraw_reg (s : State) (j : Reg) : (s.noteDraw).reg j = s.reg j := rfl

@[simp] theorem State.setNow_v (s : State) (t : Time) : (s.setNow t).v = s.v := rfl
@[simp] theorem State.setNow_i (s : State) (t : Time) : (s.setNow t).i = s.i := rfl
@[simp] theorem State.setNow_pc (s : State) (t : Time) : (s.setNow t).pc = s.pc := rfl
@[simp] theorem State.setNow_stack (s : State) (t : Time) : (s.setNow t).stack = s.stack := rfl
@[simp] theorem State.setNow_sp (s : State) (t : Time) : (s.setNow t).sp = s.sp := rfl
@[simp] theorem State.setNow_dt (s : State) (t : Time) : (s.setNow t).dt = s.dt := rfl
@[simp] theorem State.setNow_st (s : State) (t : Time) : (s.setNow t).st = s.st := rfl
@[simp] theorem State.setNow_dtRef (s : State) (t : Time) : (s.setNow t).dtRef = s.dtRef := rfl
@[simp] theorem State.setNow_mem (s : State) (t : Time) : (s.setNow t).mem = s.mem := rfl
@[simp] theorem State.setNow_disp (s : State) (t : Time) : (s.setNow t).disp = s.disp := rfl
@[simp] theorem State.setNow_keys (s : State) (t : Time) : (s.setNow t).keys = s.keys := rfl
@[simp] theorem State.setNow_blocking (s : State) (t : Time) : (s.setNow t).blocking = s.blocking := rfl
@[simp] theorem State.setNow_target (s : State) (t : Time) : (s.setNow t).target = s.target := rfl
@[simp] theorem State.setNow_params (s : State) (t : Time) : (s.setNow t).params = s.params := rfl
@[simp] theorem State.setNow_now (s : State) (t : Time) : (s.setNow t).now = t := rfl
@[simp] theorem State.setNow_draws (s : State) (t : Time) : (s.setNow t).draws = s.draws := rfl
@[simp] theorem State.setNow_schedule (s : State) (t : Time) : (s.setNow t).schedule = s.schedule := rfl
@[simp] theorem State.setNow_reports (s : State) (t : Time) : (s.setNow t).reports = s.reports := rfl
@[simp] theorem State.setNow_displayChanged (s : State) (t : Time) : (s.setNow t).displayChanged = s.displayChanged := rfl
@[simp] theorem State.setNow_reg (s : State) (t : Time) (j : Reg) : (s.setNow t).reg j = s.reg j := rfl

@[simp] theorem State.setSchedule_v (s : State) (l : List (List HostOp)) : (s.setSchedule l).v = s.v := rfl
@[simp] theorem State.setSchedule_i (s : State) (l : List (List HostOp)) : (s.setSchedule l).i = s.i := rfl
@[simp] theorem State.setSchedule_pc (s : State) (l : List (List HostOp)) : (s.setSchedule l).pc = s.pc := rfl
@[simp] theorem State.setSchedule_stack (s : State) (l : List (List HostOp)) : (s.setSchedule l).stack = s.stack := rfl
@[simp] theorem State.setSchedule_sp (s : State) (l : List (List HostOp)) : (s.setSchedule l).sp = s.sp := rfl
@[simp] theorem State.setSchedule_dt (s : State) (l : List (List HostOp)) : (s.setSchedule l).dt = s.dt := rfl
@[simp] theorem State.setSchedule_st (s : State) (l : List (List HostOp)) : (s.setSchedule l).st = s.st := rfl
@[simp] theorem State.setSchedule_dtRef (s : State) (l : List (List HostOp)) : (s.setSchedule l).dtRef = s.dtRef := rfl
@[simp] theorem State.setSchedule_mem (s : State) (l : List (List HostOp)) : (s.setSchedule l).mem = s.mem := rfl
@[simp] theorem State.setSchedule_disp (s : State) (l : List (List HostOp)) : (s.setSchedule l).disp = s.disp := rfl
@[simp] theorem State.setSchedule_keys (s : State) (l : List (List HostOp)) : (s.setSchedule l).keys = s.keys := rfl
@[simp] theorem State.setSchedule_blocking (s : State) (l : List (List HostOp)) : (s.setSchedule l).blocking = s.blocking := rfl
@[simp] theorem State.setSchedule_target (s : State) (l : List (List HostOp)) : (s.setSchedule l).target = s.target := rfl
@[simp] theorem State.setSchedule_params (s : State) (l : List (List HostOp)) : (s.setSchedule l).params = s.params := rfl
@[simp] theorem State.setSchedule_now (s : State) (l : List (List HostOp)) : (s.setSchedule l).now = s.now := rfl
@[simp] theorem State.setSchedule_draws (s : State) (l : List (List HostOp)) : (s.setSchedule l).draws = s.draws := rfl
@[simp] theorem State.setSchedule_schedule (s : State) (l : List (List HostOp)) : (s.setSchedule l).schedule = l := rfl
@[simp] theorem State.setSchedule_reports (s : State) (l : List (List HostOp)) : (s.setSchedule l).reports = s.reports := rfl
@[simp] theorem State.setSchedule_displayChanged (s : State) (l : List (List HostOp)) : (s.setSchedule l).displayChanged = s.displayChanged := rfl
@[simp] theorem State.setSchedule_reg (s : State) (l : List (List HostOp)) (j : Reg) : (s.setSchedule l).reg j = s.reg j := rfl

@[simp] theorem State.setDisplayChanged_v (s : State) (b : Bool) : (s.setDisplayChanged b).v = s.v := rfl
@[simp] theorem State.setDisplayChanged_i (s : State) (b : Bool) : (s.setDisplayChanged b).i = s.i := rfl
@[simp] theorem State.setDisplayChanged_pc (s : State) (b : Bool) : (s.setDisplayChanged b).pc = s.pc := rfl
@[simp] theorem State.setDisplayChanged_stack (s : State) (b : Bool) : (s.setDisplayChanged b).stack = s.stack := rfl
@[simp] theorem State.setDisplayChanged_sp (s : State) (b : Bool) : (s.setDisplayChanged b).sp = s.sp := rfl
@[simp] theorem State.setDisplayChanged_dt (s : State) (b : Bool) : (s.setDisplayChanged b).dt = s.dt := rfl
@[simp] theorem State.setDisplayChanged_st (s : State) (b : Bool) : (s.setDisplayChanged b).st = s.st := rfl
@[simp] theorem State.setDisplayChanged_dtRef (s : State) (b : Bool) : (s.setDisplayChanged b).dtRef = s.dtRef := rfl
@[simp] theorem State.setDisplayChanged_mem (s : State) (b : Bool) : (s.setDisplayChanged b).mem = s.mem := rfl
@[simp] theorem State.setDisplayChanged_disp (s : State) (b : Bool) : (s.setDisplayChanged b).disp = s.disp := rfl
@[simp] theorem State.setDisplayChanged_keys (s : State) (b : Bool) : (s.setDisplayChanged b).keys = s.keys := rfl
@[simp] theorem State.setDisplayChanged_blocking (s : State) (b : Bool) : (s.setDisplayChanged b).blocking = s.blocking := rfl
@[simp] theorem State.setDisplayChanged_target (s : State) (b : Bool) : (s.setDisplayChanged b).target = s.target := rfl
@[simp] theorem State.setDisplayChanged_params (s : State) (b : Bool) : (s.setDisplayChanged b).params = s.params := rfl
@[simp] theorem State.setDisplayChanged_now (s : State) (b : Bool) : (s.setDisplayChanged b).now = s.now := rfl
@[simp] theorem State.setDisplayChanged_draws (s : State) (b : Bool) : (s.setDisplayChanged b).draws = s.draws := rfl
@[simp] theorem State.setDisplayChanged_schedule (s : State) (b : Bool) : (s.setDisplayChanged b).schedule = s.schedule := rfl
@[simp] theorem State.setDisplayChanged_reports (s : State) (b : Bool) : (s.setDisplayChanged b).reports = s.reports := rfl
@[simp] theorem State.setDisplayChanged_displayChanged (s : State) (b : Bool) : (s.setDisplayChanged b).displayChanged = b := rfl
@[simp] theorem State.setDisplayChanged_reg (s : State) (b : Bool) (j : Reg) : (s.setDisplayChanged b).reg j = s.reg j := rfl

@[simp] theorem State.addReport_v (s : State) (r : Report) : (s.addReport r).v = s.v := rfl
@[simp] theorem State.addReport_i (s : State) (r : Report) : (s.addReport r).i = s.i := rfl
@[simp] theorem State.addReport_pc (s : State) (r : Report) : (s.addReport r).pc = s.pc := rfl
@[simp] theorem State.addReport_stack (s : State) (r : Report) : (s.addReport r).stack = s.stack := rfl
@[simp] theorem State.addReport_sp (s : State) (r : Report) : (s.addReport r).sp = s.sp := rfl
@[simp] theorem State.addReport_dt (s : State) (r : Report) : (s.addReport r).dt = s.dt := rfl
@[simp] theorem State.addReport_st (s : State) (r : Report) : (s.addReport r).st = s.st := rfl
@[simp] theorem State.addReport_dtRef (s : State) (r : Report) : (s.addReport r).dtRef = s.dtRef := rfl
@[simp] theorem State.addReport_mem (s : State) (r : Report) : (s.addReport r).mem = s.mem := rfl
@[simp] theorem State.addReport_disp (s : State) (r : Report) : (s.addReport r).disp = s.disp := rfl
@[simp] theorem State.addReport_keys (s : State) (r : Report) : (s.addReport r).keys = s.keys := rfl
@[simp] theorem State.addReport_blocking (s : State) (r : Report) : (s.addReport r).blocking = s.blocking := rfl
@[simp] theorem State.addReport_target (s : State) (r : Report) : (s.addReport r).target = s.target := rfl
@[simp] theorem State.addReport_params (s : State) (r : Report) : (s.addReport r).params = s.params := rfl
@[simp] theorem State.addReport_now (s : State) (r : Report) : (s.addReport r).now = s.now := rfl
@[simp] theorem State.addReport_draws (s : State) (r : Report) : (s.addReport r).draws = s.draws := rfl
@[simp] theorem State.addReport_schedule (s : State) (r : Report) : (s.addReport r).schedule = s.schedule := rfl
@[simp] theorem State.addReport_reports (s : State) (r : Report) : (s.addReport r).reports = s.reports ++ [r] := rfl
@[simp] theorem State.addReport_displayChanged (s : State) (r : Report) : (s.addReport r).displayChanged = s.displayChanged := rfl
@[simp] theorem State.addReport_reg (s : State) (r : Report) (j : Reg) : (s.addReport r).reg j = s.reg j := rfl

/-- Writing a register and reading any register (R10). -/
@[simp] theorem State.setReg_reg (s : State) (x : Reg) (b : Byte) (j : Reg) :
    (s.setReg x b).reg j = if j = x then b else s.reg j := by
  by_cases h : j = x
  · subst h
    simp [State.reg, State.setReg]
  · have : x.val ≠ j.val := fun e => h (Fin.ext e.symm)
    simp [State.reg, State.setReg, h, this]

/-! ### The state of the time-free machine -/

@[simp] theorem State.timeFree_v (s : State) : s.timeFree.v = s.v := rfl
@[simp] theorem State.timeFree_i (s : State) : s.timeFree.i = s.i := rfl
@[simp] theorem State.timeFree_pc (s : State) : s.timeFree.pc = s.pc := rfl
@[simp] theorem State.timeFree_stack (s : State) : s.timeFree.stack = s.stack := rfl
@[simp] theorem State.timeFree_sp (s : State) : s.timeFree.sp = s.sp := rfl
@[simp] theorem State.timeFree_dt (s : State) : s.timeFree.dt = s.dt := rfl
@[simp] theorem State.timeFree_st (s : State) : s.timeFree.st = s.st := rfl
@[simp] theorem State.timeFree_mem (s : State) : s.timeFree.mem = s.mem := rfl
@[simp] theorem State.timeFree_disp (s : State) : s.timeFree.disp = s.disp := rfl
@[simp] theorem State.timeFree_keys (s : State) : s.timeFree.keys = s.keys := rfl
@[simp] theorem State.timeFree_blocking (s : State) : s.timeFree.blocking = s.blocking := rfl
@[simp] theorem State.timeFree_target (s : State) : s.timeFree.target = s.target := rfl
@[simp] theorem State.timeFree_params (s : State) : s.timeFree.params = s.params := rfl
@[simp] theorem State.timeFree_draws (s : State) : s.timeFree.draws = s.draws := rfl
@[simp] theorem State.timeFree_reports (s : State) : s.timeFree.reports = s.reports := rfl
@[simp] theorem State.timeFree_displayChanged (s : State) : s.timeFree.displayChanged = s.displayChanged := rfl
@[simp] theorem State.timeFree_dtRef (s : State) : s.timeFree.dtRef = clockOrigin := rfl
@[simp] theorem State.timeFree_now (s : State) : s.timeFree.now = clockOrigin := rfl
@[simp] theorem State.timeFree_schedule (s : State) : s.timeFree.schedule = [] := rfl
@[simp] theorem State.timeFree_reg (s : State) (x : Reg) : s.timeFree.reg x = s.reg x := rfl

end Sys2Proof.Machine
end

