-- ==== Sys2Proof/Laws/Memory.lean ====
section
/-! SUPPORT. The laws of `MEM`: every operation keeps the canonical form, a read after a write gives the value
written, and a write leaves every other address alone. -/

namespace Sys2Proof.Machine

@[simp] theorem Memory.read_nil (a : Nat) : Memory.read [] a = Memory.unlisted a := rfl

@[simp] theorem Memory.read_listed (b : Nat) (u : Byte) (rest : Memory) (a : Nat) :
    Memory.read ((b, u) :: rest) a = if a = b then u else Memory.read rest a := rfl

theorem Memory.wfFrom_listed {low b : Nat} {u : Byte} {rest : Memory} :
    Memory.wfFrom low ((b, u) :: rest) = true ↔
      low ≤ b ∧ b < Config.memSize ∧ u ≠ Memory.unlisted b ∧ Memory.wfFrom (b + 1) rest = true := by
  simp [Memory.wfFrom, and_assoc]

theorem Memory.wfFrom_mono {low low' : Nat} {m : Memory} (h : Memory.wfFrom low' m = true) (hl : low ≤ low') :
    Memory.wfFrom low m = true := by
  cases m with
  | nil => rfl
  | cons c rest =>
      obtain ⟨b, u⟩ := c
      rw [Memory.wfFrom_listed] at h ⊢
      exact ⟨hl.trans h.1, h.2⟩

/-- An address below every listed one reads as an unlisted address. -/
theorem Memory.read_below {low a : Nat} {m : Memory} (h : Memory.wfFrom low m = true) (ha : a < low) :
    m.read a = Memory.unlisted a := by
  induction m generalizing low with
  | nil => rfl
  | cons c rest ih =>
      obtain ⟨b, u⟩ := c
      rw [Memory.wfFrom_listed] at h
      rw [Memory.read_listed, if_neg (by omega)]
      exact ih h.2.2.2 (by omega)

theorem Memory.read_cons_ne {a b : Nat} (u : Byte) (m : Memory) (h : b ≠ a) :
    (Memory.cons a u m).read b = m.read b := by
  unfold Memory.cons
  split <;> simp [h]

theorem Memory.read_cons_self {a : Nat} (u : Byte) {m : Memory} (h : Memory.wfFrom (a + 1) m = true) :
    (Memory.cons a u m).read a = u := by
  unfold Memory.cons
  split
  · rw [Memory.read_below h (Nat.lt_succ_self a)]
    exact Eq.symm ‹_›
  · simp

theorem Memory.cons_wfFrom {low a : Nat} (u : Byte) {m : Memory} (h : Memory.wfFrom (a + 1) m = true)
    (hl : low ≤ a) (ha : a < Config.memSize) : Memory.wfFrom low (Memory.cons a u m) = true := by
  unfold Memory.cons
  split
  · exact Memory.wfFrom_mono h (by omega)
  · exact Memory.wfFrom_listed.2 ⟨hl, ha, ‹_›, h⟩

theorem Memory.read_insert_ne {a b : Nat} (u : Byte) (m : Memory) (h : b ≠ a) :
    (m.insert a u).read b = m.read b := by
  induction m with
  | nil => exact Memory.read_cons_ne u [] h
  | cons c rest ih =>
      obtain ⟨d, w⟩ := c
      unfold Memory.insert
      split
      · exact Memory.read_cons_ne u _ h
      · split
        · rw [Memory.read_cons_ne u _ h]
          simp_all
        · simp [ih]

theorem Memory.read_insert_self {low a : Nat} (u : Byte) {m : Memory} (h : Memory.wfFrom low m = true) :
    (m.insert a u).read a = u := by
  induction m generalizing low with
  | nil => exact Memory.read_cons_self u rfl
  | cons c rest ih =>
      obtain ⟨d, w⟩ := c
      have h' := Memory.wfFrom_listed.1 h
      unfold Memory.insert
      split
      · exact Memory.read_cons_self u (Memory.wfFrom_listed.2 ⟨by omega, h'.2⟩)
      · split
        · subst_vars
          exact Memory.read_cons_self u h'.2.2.2
        · rw [Memory.read_listed, if_neg ‹_›]
          exact ih h'.2.2.2

theorem Memory.insert_wfFrom {low a : Nat} (u : Byte) {m : Memory} (h : Memory.wfFrom low m = true)
    (hl : low ≤ a) (ha : a < Config.memSize) : Memory.wfFrom low (m.insert a u) = true := by
  induction m generalizing low with
  | nil => exact Memory.cons_wfFrom u rfl hl ha
  | cons c rest ih =>
      obtain ⟨d, w⟩ := c
      have h' := Memory.wfFrom_listed.1 h
      unfold Memory.insert
      split
      · exact Memory.cons_wfFrom u (Memory.wfFrom_listed.2 ⟨by omega, h'.2⟩) hl ha
      · split
        · subst_vars
          exact Memory.cons_wfFrom u h'.2.2.2 hl ha
        · exact Memory.wfFrom_listed.2 ⟨h'.1, h'.2.1, h'.2.2.1, ih h'.2.2.2 (by omega)⟩

/-- A write leaves every other address alone. -/
theorem Memory.read_write_ne {a b : Nat} (u : Byte) (m : Memory) (h : b ≠ a) : (m.write a u).read b = m.read b := by
  unfold Memory.write
  split
  · exact Memory.read_insert_ne u m h
  · rfl

/-- A read after a write to the same address gives the value written. -/
theorem Memory.read_write_self {a : Nat} (u : Byte) {m : Memory} (h : m.wf = true) (ha : a < Config.memSize) :
    (m.write a u).read a = u := by
  rw [Memory.write, if_pos ha]
  exact Memory.read_insert_self u h

/-- A write keeps the canonical form. -/
theorem Memory.write_wf (a : Nat) (u : Byte) {m : Memory} (h : m.wf = true) : (m.write a u).wf = true := by
  unfold Memory.write
  split
  · exact Memory.insert_wfFrom u h (Nat.zero_le a) ‹_›
  · exact h

/-- Consecutive writes keep the canonical form. -/
theorem Memory.writeBytes_wf (a : Nat) (us : List Byte) {m : Memory} (h : m.wf = true) :
    (m.writeBytes a us).wf = true := by
  induction us generalizing m a with
  | nil => exact h
  | cons u us ih => exact ih (a + 1) (Memory.write_wf a u h)

/-- Consecutive writes leave every address outside their range alone. -/
theorem Memory.read_writeBytes_outside (a b : Nat) (us : List Byte) (m : Memory) (h : b < a ∨ a + us.length ≤ b) :
    (m.writeBytes a us).read b = m.read b := by
  induction us generalizing m a with
  | nil => rfl
  | cons u us ih =>
      rw [List.length_cons] at h
      rw [Memory.writeBytes, ih (a + 1) _ (by omega), Memory.read_write_ne u m (by omega)]

/-- Consecutive writes put the k-th byte at the k-th address. -/
theorem Memory.read_writeBytes_inside (a k : Nat) (us : List Byte) {m : Memory} (h : m.wf = true)
    (hk : k < us.length) (ha : a + us.length ≤ Config.memSize) : (m.writeBytes a us).read (a + k) = us[k] := by
  induction us generalizing m a k with
  | nil => exact absurd hk (Nat.not_lt_zero k)
  | cons u us ih =>
      simp only [List.length_cons] at hk ha
      rw [Memory.writeBytes]
      cases k with
      | zero =>
          rw [Memory.read_writeBytes_outside _ _ _ _ (by omega)]
          exact Memory.read_write_self u h (by omega)
      | succ k =>
          rw [show a + (k + 1) = a + 1 + k by omega]
          exact ih (a + 1) k (Memory.write_wf a u h) (by omega) (by omega)

@[simp] theorem Memory.length_readBytes (m : Memory) (a n : Nat) : (m.readBytes a n).length = n := by
  induction n generalizing a with
  | zero => rfl
  | succ n ih => simp [Memory.readBytes, ih]

@[simp] theorem Memory.getElem_readBytes (m : Memory) (a n k : Nat) (h : k < (m.readBytes a n).length) :
    (m.readBytes a n)[k] = m.read (a + k) := by
  induction n generalizing a k with
  | zero => simp [Memory.readBytes] at h
  | succ n ih =>
      cases k with
      | zero => rfl
      | succ k => simp [Memory.readBytes, ih, Nat.add_comm, Nat.add_left_comm]

/-- The bounds check of R48, in arithmetic. -/
theorem rangeOob_eq_false {a n : Nat} : rangeOob a n = false ↔ n = 0 ∨ a + n ≤ Config.memSize := by
  simp [rangeOob, Config.memSize]
  omega

theorem rangeOob_eq_true {a n : Nat} : rangeOob a n = true ↔ 0 < n ∧ 0xFFF < a + n - 1 := by
  simp [rangeOob]

end Sys2Proof.Machine
end

