-- ==== Sys2Proof/Laws/Ops.lean ====
section
/-! SUPPORT. For each shared operation of Machine/Ops.lean one lemma (or a few) that says everything it can do; the
proofs about instructions cite these and do not unfold the operations. -/

namespace Sys2Proof.Machine

/-! ### Frames -/

theorem Frame.refl (ps : List Part) (s : State) : Frame ps s s := by
  intro p _
  cases p <;> simp [Part.Kept]

theorem Part.Kept.trans {p : Part} {s t u : State} (h : p.Kept s t) (h' : p.Kept t u) : p.Kept s u := by
  cases p <;> simp_all [Part.Kept]

theorem Frame.trans {ps qs : List Part} {s t u : State} (h : Frame ps s t) (h' : Frame qs t u) :
    Frame (ps ++ qs) s u := fun p hp =>
  (h p fun hm => hp (List.mem_append_left _ hm)).trans (h' p fun hm => hp (List.mem_append_right _ hm))

theorem Frame.mono {ps qs : List Part} {s t : State} (h : Frame ps s t) (hs : ∀ p ∈ ps, p ∈ qs) : Frame qs s t :=
  fun p hp => h p fun hm => hp (hs p hm)

theorem setReg_frame (s : State) (x : Reg) (b : Byte) : Frame [.regs] s (s.setReg x b) := by
  intro p hp
  cases p <;> simp_all [Part.Kept]

theorem setPc_frame (s : State) (p : Word) : Frame [.pc] s (s.setPc p) := by
  intro q hq
  cases q <;> simp_all [Part.Kept]

theorem setMem_frame (s : State) (m : Memory) : Frame [.memory] s (s.setMem m) := by
  intro q hq
  cases q <;> simp_all [Part.Kept]

theorem addReport_frame (s : State) (r : Report) : Frame [.reports] s (s.addReport r) := by
  intro q hq
  cases q <;> simp_all [Part.Kept]

theorem drawn_frame (s : State) (d : Display) : Frame [.display, .displayChanged] s (s.drawn d) := by
  intro q hq
  cases q <;> simp_all [Part.Kept]

/-! ### Skips -/

/-- A skip touches `PC` only, and adds 2 to it exactly when its condition holds (R83, R88). -/
theorem skipIf_pc (s : State) (c : Bool) : (s.skipIf c).pc = if c then s.pc + 2 else s.pc := by
  cases c <;> rfl

theorem skipIf_frame (s : State) (c : Bool) : Frame [.pc] s (s.skipIf c) := by
  cases c
  · exact Frame.refl _ s
  · exact setPc_frame s _

/-! ### Results with a flag, and blocks of registers -/

/-- Everything a flag-writing result does to the registers (R111): with `x = 0xF` the write that `VF_ORDER` names
last is the one that is left. -/
theorem setResultAndFlag_reg (s : State) (x : Reg) (result flag : Byte) (j : Reg) :
    (s.setResultAndFlag x result flag).reg j =
      match s.params.vfOrder with
      | .flagLast => if j = 15 then flag else if j = x then result else s.reg j
      | .resultLast => if j = x then result else if j = 15 then flag else s.reg j := by
  cases h : s.params.vfOrder <;> simp [State.setResultAndFlag, h]

theorem setResultAndFlag_frame (s : State) (x : Reg) (result flag : Byte) :
    Frame [.regs] s (s.setResultAndFlag x result flag) := by
  unfold State.setResultAndFlag
  split <;> exact ((setReg_frame s _ _).trans (setReg_frame _ _ _)).mono (by simp)

theorem setRegsFrom_frame (s : State) (k : Nat) (bs : List Byte) : Frame [.regs] s (s.setRegsFrom k bs) := by
  induction bs generalizing s k with
  | nil => exact Frame.refl _ s
  | cons b bs ih =>
      unfold State.setRegsFrom
      refine (Frame.trans (?_ : Frame [.regs] s _) (ih _ _)).mono (by simp)
      split
      · exact setReg_frame s _ _
      · exact Frame.refl _ s

/-- Everything a block load does to the registers (R125): the registers of the block get their bytes, the others keep
their values. -/
theorem setRegsFrom_reg (s : State) (k : Nat) (bs : List Byte) (j : Reg) :
    (s.setRegsFrom k bs).reg j = if k ≤ j.val then bs[j.val - k]?.getD (s.reg j) else s.reg j := by
  induction bs generalizing s k with
  | nil => simp [State.setRegsFrom]
  | cons b bs ih =>
      have other : j.val ≠ k → (if h : k < 16 then s.setReg ⟨k, h⟩ b else s).reg j = s.reg j := fun hj => by
        split
        · rw [State.setReg_reg, if_neg fun h => hj (congrArg Fin.val h)]
        · rfl
      rw [State.setRegsFrom, ih]
      rcases Nat.lt_trichotomy j.val k with hj | hj | hj
      · rw [if_neg (by omega), if_neg (by omega), other (by omega)]
      · have hk : k < 16 := hj ▸ j.isLt
        have : j = ⟨k, hk⟩ := Fin.ext hj
        simp [hk, this]
      · rw [if_pos (by omega), if_pos (by omega), other (by omega),
          show j.val - k = (j.val - (k + 1)) + 1 by omega, List.getElem?_cons_succ]

theorem regsUpTo_length (s : State) (x : Reg) : (s.regsUpTo x).length = x.val + 1 := by
  simp [State.regsUpTo]

theorem regsUpTo_getElem (s : State) (x : Reg) (k : Nat) (h : k < (s.regsUpTo x).length) :
    (s.regsUpTo x)[k] = s.reg ⟨k, by rw [regsUpTo_length] at h; omega⟩ := by
  simp [State.regsUpTo, State.reg]

/-! ### Memory access with its bounds check -/

/-- A read of memory answers the bytes exactly when its range lies inside memory (R48). -/
theorem memRead_eq (s : State) (a n : Nat) :
    s.memRead a n = if n = 0 ∨ a + n ≤ Config.memSize then .ok (s.mem.readBytes a n)
      else .error (.oobMemory (a + n - 1)) := by
  unfold State.memRead
  cases h : rangeOob a n
  · rw [if_pos (rangeOob_eq_false.1 h)]
    simp
  · rw [if_neg fun hn => Bool.noConfusion (h.symm.trans (rangeOob_eq_false.2 hn))]
    simp

/-- A write of memory writes all its bytes exactly when its range lies inside memory (R48). -/
theorem memWrite_eq (s : State) (a : Nat) (us : List Byte) :
    s.memWrite a us = if us.length = 0 ∨ a + us.length ≤ Config.memSize then .ok (s.setMem (s.mem.writeBytes a us))
      else .error (.oobMemory (a + us.length - 1)) := by
  unfold State.memWrite
  cases h : rangeOob a us.length
  · rw [if_pos (rangeOob_eq_false.1 h)]
    simp
  · rw [if_neg fun hn => Bool.noConfusion (h.symm.trans (rangeOob_eq_false.2 hn))]
    simp

/-! ### The key latch -/

/-- The lowest pressed key: it is pressed, is a key number, and no lower one is pressed (R153). -/
theorem lowest_some {keys : Keys} {k : Nat} (h : keys.lowest = some k) :
    k < 16 ∧ keys.pressed k = true ∧ ∀ j, j < k → keys.pressed j = false := by
  unfold Keys.lowest at h
  have hm := List.mem_of_find?_eq_some h
  have hp := List.find?_some h
  refine ⟨by simpa [Config.keyCount] using hm, hp, fun j hj => ?_⟩
  rw [List.find?_range_eq_some] at h
  simpa using h.2.2 j hj

/-- No key is found exactly when no key is pressed. -/
theorem lowest_none {keys : Keys} : keys.lowest = none ↔ ∀ k, keys.pressed k = false := by
  unfold Keys.lowest
  rw [List.find?_range_eq_none]
  constructor
  · intro h k
    by_cases hk : k < Config.keyCount
    · simpa using h k hk
    · simp [Keys.pressed, hk]
  · intro h k _
    simp [h k]

/-! ### The display -/

theorem pixel_clear (r c : Nat) : (Display.clear).pixel r c = false := by
  unfold Display.pixel Display.clear
  split <;> simp

/-- Inverting one pixel of the screen inverts that pixel and no other (R143, R144: it never reappears elsewhere). -/
theorem pixel_flip (d : Display) (r c r' c' : Nat) (hr : r < Config.dispH) (hc : c < Config.dispW) :
    (d.flip r c).pixel r' c' = if r' = r ∧ c' = c then !d.pixel r c else d.pixel r' c' := by
  unfold Display.flip Display.pixel
  rw [dif_pos hr, dif_pos hr]
  by_cases hr' : r' < Config.dispH
  · rw [dif_pos hr', dif_pos hr']
    by_cases he : r' = r
    · subst he
      by_cases hc' : c' = c
      · subst hc'
        simp [hc]
      · simp [BitVec.getLsbD_twoPow, hc', Ne.symm hc']
    · simp [he, Ne.symm he]
  · rw [dif_neg hr', dif_neg hr', if_neg fun (h : r' = r ∧ c' = c) => hr' (h.1 ▸ hr)]

/-- What the compositor does with distinct positions on the screen (R143): exactly their pixels are inverted. -/
theorem composite_pixel (ps : List (Nat × Nat)) (d : Display) (b : Bool) (r c : Nat)
    (hn : ps.Nodup) (hin : ∀ p ∈ ps, p.1 < Config.dispW ∧ p.2 < Config.dispH) :
    (composite d b ps).1.pixel r c = if (c, r) ∈ ps then !d.pixel r c else d.pixel r c := by
  induction ps generalizing d b with
  | nil => simp [composite]
  | cons p ps ih =>
      obtain ⟨pc, pr⟩ := p
      have hp := hin _ List.mem_cons_self
      rw [composite, ih _ _ (List.nodup_cons.1 hn).2 fun q hq => hin q (List.mem_cons_of_mem _ hq),
        pixel_flip d pr pc r c hp.2 hp.1]
      by_cases he : r = pr ∧ c = pc
      · obtain ⟨rfl, rfl⟩ := he
        simp [(List.nodup_cons.1 hn).1]
      · have hne : ¬((c, r) = (pc, pr)) := fun h => he ⟨(Prod.mk.inj h).2, (Prod.mk.inj h).1⟩
        simp only [if_neg he, List.mem_cons, hne, false_or]

/-- The collision detector (R143): set exactly when one of the positions was a set pixel. -/
theorem composite_collision (ps : List (Nat × Nat)) (d : Display) (b : Bool)
    (hn : ps.Nodup) (hin : ∀ p ∈ ps, p.1 < Config.dispW ∧ p.2 < Config.dispH) :
    (composite d b ps).2 = (b || ps.any fun p => d.pixel p.2 p.1) := by
  induction ps generalizing d b with
  | nil => simp [composite]
  | cons p ps ih =>
      obtain ⟨pc, pr⟩ := p
      have hp := hin _ List.mem_cons_self
      have hne : ∀ q ∈ ps, (d.flip pr pc).pixel q.2 q.1 = d.pixel q.2 q.1 := fun q hq => by
        rw [pixel_flip d pr pc _ _ hp.2 hp.1, if_neg]
        rintro ⟨h1, h2⟩
        exact (List.nodup_cons.1 hn).1 (by rw [← h1, ← h2]; exact hq)
      rw [composite, ih _ _ (List.nodup_cons.1 hn).2 fun q hq => hin q (List.mem_cons_of_mem _ hq)]
      have : (ps.any fun p => (d.flip pr pc).pixel p.2 p.1) = ps.any fun p => d.pixel p.2 p.1 := by
        rw [Bool.eq_iff_iff, List.any_eq_true, List.any_eq_true]
        constructor <;> rintro ⟨q, hq, h⟩ <;> exact ⟨q, hq, by rwa [hne q hq] at *⟩
      rw [this, List.any_cons, Bool.or_assoc]

theorem mem_spriteColumns {msbLeft : Bool} {b : Byte} {c : Nat} :
    c ∈ spriteColumns msbLeft b ↔ c < 8 ∧ b.getLsbD (spriteBit msbLeft c) = true := by
  simp [spriteColumns]

/-- The positions of a sprite's set bits (R142): row `r` of the sprite, column `c` of it. -/
theorem mem_spritePixels {msbLeft : Bool} {vx y : Nat} {bs : List Byte} {p : Nat × Nat} :
    p ∈ spritePixels msbLeft vx y bs ↔
      ∃ r c, ∃ h : r < bs.length, c < 8 ∧ bs[r].getLsbD (spriteBit msbLeft c) = true ∧ p = (vx + c, y + r) := by
  induction bs generalizing y with
  | nil => simp [spritePixels]
  | cons b bs ih =>
      rw [spritePixels, List.mem_append, ih]
      constructor
      · rintro (h | ⟨r, c, h, hc, hb, rfl⟩)
        · obtain ⟨c, hc, rfl⟩ := List.mem_map.1 h
          rw [mem_spriteColumns] at hc
          exact ⟨0, c, by simp, hc.1, by simpa using hc.2, rfl⟩
        · exact ⟨r + 1, c, by simpa using h, hc, by simpa using hb, by simp; omega⟩
      · rintro ⟨r, c, h, hc, hb, rfl⟩
        cases r with
        | zero => exact .inl (List.mem_map.2 ⟨c, mem_spriteColumns.2 ⟨hc, by simpa using hb⟩, rfl⟩)
        | succ r => exact .inr ⟨r, c, by simpa using h, hc, by simpa using hb, by simp; omega⟩

/-- Within one sprite no pixel is named twice (R143). -/
theorem nodup_spritePixels (msbLeft : Bool) (vx y : Nat) (bs : List Byte) :
    (spritePixels msbLeft vx y bs).Nodup := by
  induction bs generalizing y with
  | nil => exact List.nodup_nil
  | cons b bs ih =>
      rw [spritePixels, List.nodup_append]
      refine ⟨?_, ih (y + 1), ?_⟩
      · refine List.Nodup.map (fun c c' h => ?_) (List.nodup_range.filter _)
        simpa using h
      · intro p hp q hq
        obtain ⟨c, _, rfl⟩ := List.mem_map.1 hp
        obtain ⟨r, c', _, _, _, rfl⟩ := mem_spritePixels.1 hq
        intro h
        have := (Prod.mk.inj h).2
        omega

/-- Everything the drawing of a sprite can do (R141, R144): it completes exactly when all positions are on the screen. -/
theorem drawPixels_eq (s : State) (ps : List (Nat × Nat)) :
    s.drawPixels ps =
      if ∀ p ∈ ps, p.1 < Config.dispW ∧ p.2 < Config.dispH then
        .next ((s.setReg 15 (flagByte (composite s.disp false ps).2)).drawn (composite s.disp false ps).1)
      else raise (.oobDisplay (s.recordedPixel (ps.filter pixelOob)).1 (s.recordedPixel (ps.filter pixelOob)).2) := by
  have key : (ps.filter pixelOob = []) ↔ ∀ p ∈ ps, p.1 < Config.dispW ∧ p.2 < Config.dispH := by
    rw [List.filter_eq_nil_iff]
    refine forall₂_congr fun p _ => ?_
    simp [pixelOob, not_or]
  unfold State.drawPixels
  split
  · rw [if_pos (key.1 ‹_›)]
  · rw [if_neg fun h => by rw [key.2 h] at *; contradiction]
    simp_all

/-- The pixel that `OobDisplay` records is one of those that are off the screen. -/
theorem recordedPixel_mem (s : State) {oob : List (Nat × Nat)} (h : oob ≠ []) : s.recordedPixel oob ∈ oob := by
  have hl : Config.oobPixelIndex s.draws % oob.length < oob.length :=
    Nat.mod_lt _ (List.length_pos_iff.2 h)
  unfold State.recordedPixel
  rw [List.getD_eq_getElem _ _ hl]
  exact List.getElem_mem hl

/-! ### The fetch -/

/-- The parity of the program counter (R63). -/
theorem pc_odd (p : Word) : p.getLsbD 0 = decide (p.toNat % 2 = 1) := by
  simp [BitVec.getLsbD, Nat.testBit_zero]

/-- When the fetch reads the word at `PC` (R63): `PC` within memory, and even unless `ODD_PC_POLICY` is `execute`. -/
theorem fetch_eq_ok {s : State} {w : Word} :
    s.fetch = .ok w ↔ s.pc.toNat ≤ 0xFFE ∧ (s.pc.toNat % 2 = 0 ∨ s.params.oddPc = .execute) ∧
      w = s.mem.word s.pc.toNat := by
  unfold State.fetch
  rw [pc_odd]
  have ho : s.params.oddPc = .fault ∨ s.params.oddPc = .execute := by cases s.params.oddPc <;> simp
  split
  · simp
    omega
  · split
    · rename_i h
      simp at h
      simp [h.1, h.2]
    · rename_i h1 h2
      simp at h2
      constructor
      · rintro ⟨rfl⟩
        refine ⟨by omega, ?_, rfl⟩
        rcases ho with h | h
        · exact .inl (by have := mt h2 (by simp [h]); omega)
        · exact .inr h
      · rintro ⟨_, _, rfl⟩
        rfl

/-! ### HOST -/

/-- Operations one after another, as a fold. -/
theorem hostOps_eq_foldl (s : State) (ops : List HostOp) : s.hostOps ops = ops.foldl State.hostOp s := by
  induction ops generalizing s with
  | nil => rfl
  | cons op ops ih => exact ih _

/-- Time passes forward only (R186). -/
theorem le_clockAfter (c : Time) (op : HostOp) : c.ms ≤ (clockAfter c op).ms := by
  cases op <;> simp [clockAfter, later, (millis _ _).nonneg]

/-- The clock of a state after an operation is the clock of any machine after it. -/
theorem hostOp_now (s : State) (op : HostOp) : (s.hostOp op).now = clockAfter s.now op := by
  cases op <;> simp [State.hostOp, clockAfter, State.ageTimers, State.tick]
  split <;> rfl

/-- One HOST operation touches the latch, the timers and the clock only (R185). -/
theorem hostOp_frame (s : State) (op : HostOp) :
    Frame [.keys, .delayTimer, .soundTimer, .dtRef, .clock] s (s.hostOp op) := by
  intro p hp
  cases op <;> cases p <;> simp_all [Part.Kept, State.hostOp, State.ageTimers, State.tick] <;> split <;> simp

theorem hostOps_frame (s : State) (ops : List HostOp) :
    Frame [.keys, .delayTimer, .soundTimer, .dtRef, .clock] s (s.hostOps ops) := by
  induction ops generalizing s with
  | nil => exact Frame.refl _ s
  | cons op ops ih => exact ((hostOp_frame s op).trans (ih _)).mono (by simp)

/-- HOST's turn touches the latch, the timers, the clock and its own schedule only (R185). -/
theorem hostTurn_frame (s : State) :
    Frame [.keys, .delayTimer, .soundTimer, .dtRef, .clock, .schedule] s s.hostTurn := by
  unfold State.hostTurn
  split
  · exact Frame.refl _ s
  · refine (Frame.trans (ps := [.schedule]) ?_ (hostOps_frame _ _)).mono (by simp)
    intro p hp
    cases p <;> simp_all [Part.Kept]

end Sys2Proof.Machine
end

