-- ==== Sys2Proof/Laws/PerInstr.lean ====
section
/-! SUPPORT. Statements about every instruction as syntax, one lemma per constructor. -/

namespace Sys2Proof.Laws

/-- An instruction's word matches its own row of the opcode map: its masked bits are the row's pattern (R65). -/
def RowMatch.Statement (i : Instr) : Prop := encode i &&& i.row.mask = i.row.pattern


theorem RowMatch.cls : RowMatch.Statement .cls :=
  by rw [RowMatch.Statement]; decide

theorem RowMatch.ret : RowMatch.Statement .ret :=
  by rw [RowMatch.Statement]; decide

theorem RowMatch.jp (a : Addr) : RowMatch.Statement (.jp a) :=
  (encAddr_mask _ a).trans rfl

theorem RowMatch.call (a : Addr) : RowMatch.Statement (.call a) :=
  (encAddr_mask _ a).trans rfl

theorem RowMatch.seImm (x : Reg) (nn : Byte) : RowMatch.Statement (.seImm x nn) :=
  (encXNN_mask _ x nn).trans rfl

theorem RowMatch.sneImm (x : Reg) (nn : Byte) : RowMatch.Statement (.sneImm x nn) :=
  (encXNN_mask _ x nn).trans rfl

theorem RowMatch.seReg (x y : Reg) : RowMatch.Statement (.seReg x y) :=
  (encXYN_maskLow _ x y _).trans rfl

theorem RowMatch.ldImm (x : Reg) (nn : Byte) : RowMatch.Statement (.ldImm x nn) :=
  (encXNN_mask _ x nn).trans rfl

theorem RowMatch.addImm (x : Reg) (nn : Byte) : RowMatch.Statement (.addImm x nn) :=
  (encXNN_mask _ x nn).trans rfl

theorem RowMatch.ldReg (x y : Reg) : RowMatch.Statement (.ldReg x y) :=
  (encXYN_maskLow _ x y _).trans rfl

theorem RowMatch.orReg (x y : Reg) : RowMatch.Statement (.orReg x y) :=
  (encXYN_maskLow _ x y _).trans rfl

theorem RowMatch.andReg (x y : Reg) : RowMatch.Statement (.andReg x y) :=
  (encXYN_maskLow _ x y _).trans rfl

theorem RowMatch.xorReg (x y : Reg) : RowMatch.Statement (.xorReg x y) :=
  (encXYN_maskLow _ x y _).trans rfl

theorem RowMatch.addReg (x y : Reg) : RowMatch.Statement (.addReg x y) :=
  (encXYN_maskLow _ x y _).trans rfl

theorem RowMatch.sub (x y : Reg) : RowMatch.Statement (.sub x y) :=
  (encXYN_maskLow _ x y _).trans rfl

theorem RowMatch.shr (x y : Reg) : RowMatch.Statement (.shr x y) :=
  (encXYN_maskLow _ x y _).trans rfl

theorem RowMatch.subn (x y : Reg) : RowMatch.Statement (.subn x y) :=
  (encXYN_maskLow _ x y _).trans rfl

theorem RowMatch.shl (x y : Reg) : RowMatch.Statement (.shl x y) :=
  (encXYN_maskLow _ x y _).trans rfl

theorem RowMatch.sneReg (x y : Reg) : RowMatch.Statement (.sneReg x y) :=
  (encXYN_maskLow _ x y _).trans rfl

theorem RowMatch.ldI (a : Addr) : RowMatch.Statement (.ldI a) :=
  (encAddr_mask _ a).trans rfl

theorem RowMatch.jpV0 (a : Addr) : RowMatch.Statement (.jpV0 a) :=
  (encAddr_mask _ a).trans rfl

theorem RowMatch.rnd (x : Reg) (nn : Byte) : RowMatch.Statement (.rnd x nn) :=
  (encXNN_mask _ x nn).trans rfl

theorem RowMatch.drw (x y : Reg) (n : Nibble) : RowMatch.Statement (.drw x y n) :=
  (encXYN_mask _ x y n).trans rfl

theorem RowMatch.skp (x : Reg) : RowMatch.Statement (.skp x) :=
  (encXNN_maskLow _ x _).trans rfl

theorem RowMatch.sknp (x : Reg) : RowMatch.Statement (.sknp x) :=
  (encXNN_maskLow _ x _).trans rfl

theorem RowMatch.ldVxDt (x : Reg) : RowMatch.Statement (.ldVxDt x) :=
  (encXNN_maskLow _ x _).trans rfl

theorem RowMatch.waitKey (x : Reg) : RowMatch.Statement (.waitKey x) :=
  (encXNN_maskLow _ x _).trans rfl

theorem RowMatch.ldDtVx (x : Reg) : RowMatch.Statement (.ldDtVx x) :=
  (encXNN_maskLow _ x _).trans rfl

theorem RowMatch.ldStVx (x : Reg) : RowMatch.Statement (.ldStVx x) :=
  (encXNN_maskLow _ x _).trans rfl

theorem RowMatch.addI (x : Reg) : RowMatch.Statement (.addI x) :=
  (encXNN_maskLow _ x _).trans rfl

theorem RowMatch.ldFont (x : Reg) : RowMatch.Statement (.ldFont x) :=
  (encXNN_maskLow _ x _).trans rfl

theorem RowMatch.bcd (x : Reg) : RowMatch.Statement (.bcd x) :=
  (encXNN_maskLow _ x _).trans rfl

theorem RowMatch.storeRegs (x : Reg) : RowMatch.Statement (.storeRegs x) :=
  (encXNN_maskLow _ x _).trans rfl

theorem RowMatch.loadRegs (x : Reg) : RowMatch.Statement (.loadRegs x) :=
  (encXNN_maskLow _ x _).trans rfl

end Sys2Proof.Laws
end

