-- ==== Sys2Proof/Laws/Step.lean ====
section
/-! SUPPORT. What a step can do, said once: the cases of `step`, which the proofs about steps cite. -/

namespace Sys2Proof.Machine

/-- The four ways a step can end (R64): a poll, an instruction, an unsupported word, a faulting fetch. -/
theorem step_cases (s : State) :
    (s.hostTurn.blocking = true ∧ step s = .next s.hostTurn.poll) ∨
    (s.hostTurn.blocking = false ∧ ∃ f, s.hostTurn.fetch = .error f ∧ step s = .fault f) ∨
    (s.hostTurn.blocking = false ∧ ∃ w i, s.hostTurn.fetch = .ok w ∧ decode w = some i ∧
      step s = exec i s.hostTurn.startInstr) ∨
    (s.hostTurn.blocking = false ∧ ∃ w, s.hostTurn.fetch = .ok w ∧ decode w = none ∧
      step s = .next (s.hostTurn.startInstr.report .unsupportedOpcode w)) := by
  unfold step coreStep
  cases hb : s.hostTurn.blocking
  · cases hf : s.hostTurn.fetch with
    | error f => exact .inr (.inl ⟨rfl, f, rfl, rfl⟩)
    | ok w =>
        cases hd : decode w with
        | none => exact .inr (.inr (.inr ⟨rfl, w, rfl, hd, by simp [runWord, hd]⟩))
        | some i => exact .inr (.inr (.inl ⟨rfl, w, i, rfl, hd, by simp [runWord, hd]⟩))
  · exact .inl ⟨rfl, rfl⟩

/-- The start of an instruction advances `PC` and clears the returned value, nothing else (R64). -/
theorem startInstr_frame (s : State) : Frame [.pc, .displayChanged] s s.startInstr := by
  intro p hp
  cases p <;> simp_all [Part.Kept, State.startInstr, State.advance]

/-- A word is its two bytes, high byte first (R42). -/
theorem wordOfBytes_highByte_lowByte (w : Word) : wordOfBytes (highByte w) (lowByte w) = w := by
  refine BitVec.eq_of_getLsbD_eq fun k hk => ?_
  simp only [wordOfBytes, highByte, lowByte, BitVec.getLsbD_append, BitVec.getLsbD_extractLsb']
  split
  · simp [*]
  · rw [show 8 + (k - 8) = k by omega]
    simp
    omega

/-- A word placed for the next fetch is what the fetch reads. -/
theorem withFetchWord_fetch {s : State} (nbits w : Nat) (hw : s.mem.wf = true) (hp : s.pc.toNat ≤ 0xFFE)
    (he : s.pc.toNat % 2 = 0) :
    (s.withFetchWord nbits w).fetch = .ok (BitVec.ofNat 16 (w % 2 ^ nbits)) := by
  refine fetch_eq_ok.2 ⟨hp, .inl he, ?_⟩
  have h0 := Memory.read_writeBytes_inside s.pc.toNat 0
    [highByte (BitVec.ofNat 16 (w % 2 ^ nbits)), lowByte (BitVec.ofNat 16 (w % 2 ^ nbits))] hw (by simp)
    (by simp [Config.memSize]; omega)
  have h1 := Memory.read_writeBytes_inside s.pc.toNat 1
    [highByte (BitVec.ofNat 16 (w % 2 ^ nbits)), lowByte (BitVec.ofNat 16 (w % 2 ^ nbits))] hw (by simp)
    (by simp [Config.memSize]; omega)
  refine Eq.symm (Eq.trans ?_ (wordOfBytes_highByte_lowByte _))
  exact congrArg₂ wordOfBytes h0 h1

end Sys2Proof.Machine
end

