-- ==== Sys2Proof/Tests/Slice0.lean ====
section
/-! SUPPORT. The model's own tests: expected results from the tables of 95_test_vectors.md (T-E, T-X, T-F, T-A, T-M, T-D, T-K,
T-T, T-R) or worked out by hand from the rules, one step each; and the witnesses that the hypotheses of the
statements in Certificates/Slice0/Obligations.lean can be met. -/

namespace Sys2Proof.Tests

open Sys2Proof.Machine

/-! ### Helpers -/

/-- One fact about the next state, if there is one. -/
def after {α : Type} (r : Result) (f : State → α) : Option α :=
  match r with
  | .next t => some (f t)
  | _ => none

/-- The hard fault of an outcome, if it is one. -/
def faultOf (r : Result) : Option Fault :=
  match r with
  | .fault f => some f
  | _ => none

/-- Whether an outcome is the hard fault `OobDisplay`. -/
def isOobDisplay (r : Result) : Bool :=
  match r with
  | .fault (.oobDisplay _ _) => true
  | _ => false

/-- The step that fetches and runs the word at `PC`. -/
def run (s : State) (w : Nat) : Result := step (s.withFetchWord 16 w)

/-- The reset state with two registers set. -/
def regs2 (x : Reg) (a : Byte) (y : Reg) (b : Byte) : State := (State.reset.setReg x a).setReg y b

/-- The reset state with `I` at 0x300 and bytes there. -/
def sprite (bytes : List Byte) (vx vy : Byte) : State :=
  ((regs2 0 vx 1 vy).setI 0x300).setMem (Memory.writeBytes [] 0x300 bytes)

/-- The reset state with one parameter changed. -/
def withParams (p : Params) (s : State) : State := { s with params := p }

/-- Whether exactly the listed pixels (column, row) are set. -/
def onlySet (d : Display) (ps : List (Nat × Nat)) : Bool :=
  (List.range 32).all fun r => (List.range 64).all fun c => d.pixel r c == ps.contains (c, r)

/-! ### Well-formedness -/

theorem test_instruction_wellFormed : (Instr.drw 15 15 0xF).wellFormed = true := by decide
theorem test_odd_image_refused : imageEven [0x60, 0x01, 0x12] = false := by decide
theorem test_long_image_refused : imageFits (List.replicate 3586 0) = false := by
  unfold imageFits; rw [List.length_replicate]; decide
theorem test_largest_image_accepted : imageOk (List.replicate 3584 0) = true := by
  unfold imageOk imageEven imageFits; rw [List.length_replicate]; decide
theorem test_no_stack_refused : ({ defaultParams with stackCapacity := 0 } : Params).wellFormed = false := by decide
theorem test_no_cadence_refused : ({ defaultParams with cadence := clockOrigin } : Params).wellFormed = false := by decide
theorem test_default_params_wellFormed : defaultParams.wellFormed = true := by decide
theorem test_default_cadence : defaultCadence = millis 1000 60 := by decide +kernel

/-! ### Decoding: words written out from the encodings of the rules and the table T-E -/

theorem test_decode_flow :
    decode 0x00E0 = some .cls ∧ decode 0x00EE = some .ret ∧ decode 0x1ABC = some (.jp 0xABC) ∧
    decode 0x2ABC = some (.call 0xABC) ∧ decode 0x3542 = some (.seImm 5 0x42) ∧
    decode 0x4542 = some (.sneImm 5 0x42) ∧ decode 0x5120 = some (.seReg 1 2) ∧
    decode 0x9120 = some (.sneReg 1 2) ∧ decode 0xB300 = some (.jpV0 0x300) := by decide
theorem test_decode_alu :
    decode 0x6A2C = some (.ldImm 0xA 0x2C) ∧ decode 0x7101 = some (.addImm 1 0x01) ∧
    decode 0x8120 = some (.ldReg 1 2) ∧ decode 0x8121 = some (.orReg 1 2) ∧ decode 0x8122 = some (.andReg 1 2) ∧
    decode 0x8123 = some (.xorReg 1 2) ∧ decode 0x8AB4 = some (.addReg 0xA 0xB) ∧
    decode 0x8125 = some (.sub 1 2) ∧ decode 0x8106 = some (.shr 1 0) ∧ decode 0x8127 = some (.subn 1 2) ∧
    decode 0x8ABE = some (.shl 0xA 0xB) ∧ decode 0xC30F = some (.rnd 3 0x0F) := by decide
theorem test_decode_index_display_keys :
    decode 0xAFFF = some (.ldI 0xFFF) ∧ decode 0xF21E = some (.addI 2) ∧ decode 0xF029 = some (.ldFont 0) ∧
    decode 0xF433 = some (.bcd 4) ∧ decode 0xF155 = some (.storeRegs 1) ∧ decode 0xF565 = some (.loadRegs 5) ∧
    decode 0xD125 = some (.drw 1 2 5) ∧ decode 0xE39E = some (.skp 3) ∧ decode 0xE3A1 = some (.sknp 3) ∧
    decode 0xF407 = some (.ldVxDt 4) ∧ decode 0xF00A = some (.waitKey 0) ∧ decode 0xF315 = some (.ldDtVx 3) ∧
    decode 0xF518 = some (.ldStVx 5) := by decide
theorem test_decode_unsupported :
    [0x0000, 0x01E0, 0x00E1, 0x0123, 0x5121, 0x8AB8, 0x8ABF, 0x9AB1, 0xE39F, 0xF075, 0xFFFF].all
      (fun w => decode w == none) = true := by decide
theorem test_decode_bytes_truncated : decodeBytes [0x12] = .error .truncated := by decide
theorem test_decodeTableWord : decodeTableWord 16 0x8AB4 = some (.addReg 0xA 0xB) := by decide
theorem test_encode_words :
    encode (.call 0xABC) = 0x2ABC ∧ encode (.shr 1 2) = 0x8126 ∧ encode (.drw 1 2 5) = 0xD125 ∧
    encode (.storeRegs 1) = 0xF155 ∧ encodeBytes (.ldImm 0xA 0x12) = [0x6A, 0x12] := by decide

/-- The rows of the opcode map, one instruction of each (R65). -/
def oneOfEach : List Instr :=
  [.cls, .ret, .jp 0, .call 0, .seImm 0 0, .sneImm 0 0, .seReg 0 0, .ldImm 0 0, .addImm 0 0, .ldReg 0 0, .orReg 0 0,
    .andReg 0 0, .xorReg 0 0, .addReg 0 0, .sub 0 0, .shr 0 0, .subn 0 0, .shl 0 0, .sneReg 0 0, .ldI 0] ++
  [.jpV0 0, .rnd 0 0, .drw 0 0 0, .skp 0, .sknp 0, .ldVxDt 0, .waitKey 0, .ldDtVx 0, .ldStVx 0, .addI 0, .ldFont 0,
    .bcd 0, .storeRegs 0, .loadRegs 0]

theorem test_thirty_four_rows : oneOfEach.length = 34 := by decide
/-- "rows do not overlap, so order does not matter" (R65). -/
theorem test_rows_do_not_overlap :
    oneOfEach.Pairwise fun i j => (i.row.pattern ^^^ j.row.pattern) &&& i.row.mask &&& j.row.mask ≠ 0 := by decide

/-! ### Fetch and step (T-X, R68) -/

theorem test_fetch_font : State.fetch (State.reset.setPc 0x000) = .ok 0xF090 := by decide
theorem test_fetch_last_word : (State.fetch (State.reset.setPc 0xFFE)).toOption = some 0 := by decide
theorem test_fetch_above_memory : State.fetch (State.reset.setPc 0x1000) = .error (.oobFetch 0x1000) := by decide
theorem test_fetch_range_before_parity : State.fetch (State.reset.setPc 0xFFF) = .error (.oobFetch 0xFFF) := by decide
theorem test_fetch_odd : State.fetch (State.reset.setPc 0x201) = .error (.misalignedFetch 0x201) := by decide
theorem test_fetch_odd_executes :
    State.fetch (withParams { defaultParams with oddPc := .execute } (State.reset.setPc 0x001)) = .ok 0x9090 := by decide
theorem test_unsupported_word :
    after (run State.reset 0x5121) (fun t => (t.pc, t.reports, t.displayChanged)) =
      some (0x202, [⟨.unsupportedOpcode, 0x5121, 0x200⟩], false) := by decide

/-! ### Control transfer (T-F) -/

theorem test_jp : after (run State.reset 0x1234) State.pc = some 0x234 := by decide
theorem test_call : after (run State.reset 0x2ABC) (fun t => (t.stack[0]?, t.sp, t.pc)) = some (some 0x202, 1, 0xABC) := by
  decide
theorem test_call_overflow :
    after (run { State.reset with sp := 24 } 0x2ABC) (fun t => (t.reports, t.sp, t.pc)) =
      some ([⟨.stackOverflow, 0x2ABC, 0x200⟩], 24, 0x202) := by decide
theorem test_ret :
    after (run { State.reset with sp := 2, stack := State.reset.stack.set 1 0x3F0 } 0x00EE) (fun t => (t.sp, t.pc)) =
      some (1, 0x3F0) := by decide
theorem test_ret_underflow :
    after (run State.reset 0x00EE) (fun t => (t.reports, t.sp, t.pc)) =
      some ([⟨.stackUnderflow, 0x00EE, 0x200⟩], 0, 0x202) := by decide
theorem test_jpV0 : after (run (State.reset.setReg 0 0xFF) 0xBFFF) State.pc = some 0x10FE := by decide
theorem test_seImm : after (run (State.reset.setReg 5 0x42) 0x3542) State.pc = some 0x204 := by decide
theorem test_seImm_at_end :
    after (run ((State.reset.setReg 5 0x42).setPc 0xFFE) 0x3542) State.pc = some 0x1002 := by decide
theorem test_sneImm : after (run (State.reset.setReg 5 0x42) 0x4542) State.pc = some 0x202 := by decide
theorem test_seReg : after (run (regs2 1 7 2 8) 0x5120) State.pc = some 0x202 := by decide
theorem test_sneReg : after (run (regs2 1 7 2 8) 0x9120) State.pc = some 0x204 := by decide

/-! ### Load and arithmetic (T-A) -/

theorem test_ldImm : after (run State.reset 0x6A2C) (fun t => t.reg 0xA) = some 0x2C := by decide
theorem test_addImm : after (run (regs2 1 0xFF 15 0x37) 0x7101) (fun t => (t.reg 1, t.reg 15)) = some (0x00, 0x37) := by
  decide
theorem test_ldReg : after (run (regs2 1 0x12 2 0x37) 0x8120) (fun t => t.reg 1) = some 0x37 := by decide
theorem test_orReg : after (run (regs2 1 0x50 2 0x05) 0x8121) (fun t => t.reg 1) = some 0x55 := by decide
theorem test_andReg : after (run (regs2 1 0x3C 2 0x0F) 0x8122) (fun t => t.reg 1) = some 0x0C := by decide
theorem test_xorReg : after (run (regs2 1 0xFF 2 0x0F) 0x8123) (fun t => t.reg 1) = some 0xF0 := by decide
theorem test_addReg : after (run (regs2 1 0xFF 2 0xFF) 0x8124) (fun t => (t.reg 1, t.reg 15)) = some (0xFE, 1) := by decide
theorem test_addReg_to_flag : after (run (regs2 15 0x02 1 0x03) 0x8F14) (fun t => t.reg 15) = some 0 := by decide
theorem test_addReg_result_last :
    after (run (withParams { defaultParams with vfOrder := .resultLast } (regs2 15 0x02 1 0x03)) 0x8F14)
      (fun t => t.reg 15) = some 5 := by decide
theorem test_sub_borrow : after (run (regs2 1 0x00 2 0xFF) 0x8125) (fun t => (t.reg 1, t.reg 15)) = some (0x01, 0) := by
  decide
theorem test_sub_equal : after (run (regs2 1 5 2 5) 0x8125) (fun t => (t.reg 1, t.reg 15)) = some (0x00, 1) := by decide
theorem test_subn : after (run (regs2 1 3 2 1) 0x8127) (fun t => (t.reg 1, t.reg 15)) = some (0xFE, 0) := by decide
theorem test_shr : after (run (regs2 1 0x05 2 0x08) 0x8126) (fun t => (t.reg 1, t.reg 15)) = some (0x02, 1) := by decide
theorem test_shr_source_y :
    after (run (withParams { defaultParams with shiftSrc := .y } (regs2 1 0x05 2 0x08)) 0x8126)
      (fun t => (t.reg 1, t.reg 15)) = some (0x04, 0) := by decide
theorem test_shl : after (run (regs2 1 0x81 2 0) 0x812E) (fun t => (t.reg 1, t.reg 15)) = some (0x02, 1) := by decide
theorem test_shl_no_bit : after (run (regs2 1 0x7F 15 9) 0x810E) (fun t => (t.reg 1, t.reg 15)) = some (0xFE, 0) := by
  decide
theorem test_rnd_reference :
    after (run (withParams { defaultParams with rand := .const 0x2A } State.reset) 0xC30F)
      (fun t => (t.reg 3, t.draws)) = some (0x0A, 1) := by decide
theorem test_rnd_mask_zero : after (run (State.reset.setReg 3 0x55) 0xC300) (fun t => t.draws) = some 1 := by decide

/-! ### Index register and memory (T-M) -/

theorem test_ldI : after (run State.reset 0xAFFF) State.i = some 0xFFF := by decide
theorem test_addI : after (run ((State.reset.setReg 2 0xFF).setI 0xF00) 0xF21E) State.i = some 0xFFF := by decide
theorem test_addI_faults :
    faultOf (run ((State.reset.setReg 2 0x01).setI 0xFFF) 0xF21E) = some (.oobIndex 0x1000) := by decide
theorem test_ldFont : after (run (State.reset.setReg 0 0x1A) 0xF029) State.i = some 0x032 := by decide
theorem test_bcd :
    after (run ((State.reset.setReg 0 0xFD).setI 0x300) 0xF033) (fun t => t.mem.readBytes 0x300 3) = some [2, 5, 3] := by
  decide
theorem test_bcd_faults : faultOf (run (State.reset.setI 0xFFE) 0xF433) = some (.oobMemory 0x1000) := by decide
theorem test_storeRegs :
    after (run ((regs2 0 0x11 1 0x22).setI 0x300) 0xF155) (fun t => (t.mem.readBytes 0x300 3, t.i)) =
      some ([0x11, 0x22, 0x00], 0x300) := by decide
theorem test_storeRegs_faults : faultOf (run (State.reset.setI 0xFF1) 0xFF55) = some (.oobMemory 0x1000) := by decide
theorem test_loadRegs_font :
    after (run State.reset 0xF465) (fun t => [t.reg 0, t.reg 1, t.reg 2, t.reg 3, t.reg 4, t.reg 5]) =
      some [0xF0, 0x90, 0x90, 0x90, 0xF0, 0x00] := by decide
theorem test_loadRegs_faults : faultOf (run (State.reset.setI 0xFFF) 0xF165) = some (.oobMemory 0x1000) := by decide

/-! ### Display (T-D) -/

theorem test_drw_leftmost :
    after (run (sprite [0x80] 0 0) 0xD011) (fun t => (onlySet t.disp [(0, 0)], t.reg 15, t.displayChanged)) =
      some (true, 0, true) := by decide +kernel
theorem test_drw_collision :
    after (run { sprite [0xC0] 0 0 with disp := Display.clear.flip 0 0 } 0xD011)
      (fun t => (onlySet t.disp [(1, 0)], t.reg 15)) = some (true, 1) := by decide +kernel
theorem test_drw_off_right : isOobDisplay (run (sprite [0xFF] 57 0) 0xD011) = true := by decide
theorem test_drw_clear_bit_off_right :
    after (run (sprite [0xFE] 57 0) 0xD011) (fun t => t.reg 15) = some 0 := by decide
theorem test_drw_off_bottom : isOobDisplay (run (sprite [0x80, 0x80] 0 31) 0xD012) = true := by decide
theorem test_drw_memory_first :
    faultOf (run ((State.reset.setReg 0 64).setI 0xFFF) 0xD012) = some (.oobMemory 0x1000) := by decide
theorem test_drw_nothing : after (run (sprite [] 200 200 |>.setReg 15 1) 0xD010) (fun t => (t.reg 15, t.displayChanged)) =
    some (0, true) := by decide
theorem test_drw_flag_coordinate :
    after (run ((sprite [0x80] 0 2).setReg 15 3) 0xDF11) (fun t => (t.disp.pixel 2 3, t.reg 15)) = some (true, 0) := by
  decide
theorem test_drw_lsb_left :
    after (run (withParams { defaultParams with spriteMsbLeft := false } (sprite [0x80] 0 0)) 0xD011)
      (fun t => (t.disp.pixel 0 0, t.disp.pixel 0 7)) = some (false, true) := by decide
theorem test_cls :
    after (run { State.reset with disp := Display.clear.flip 31 63 } 0x00E0)
      (fun t => (t.disp.pixel 31 63, t.displayChanged)) = some (false, true) := by decide

/-! ### Keys (T-K) -/

/-- Keys 9 and 12 pressed. -/
def keys9and12 : Keys := (State.reset.keys.set 9 true).set 12 true

/-- Waiting for a key for `V[3]`. -/
def waiting (keys : Keys) : State := { State.reset with blocking := true, target := 3, keys := keys }

theorem test_skp : after (run ((State.reset.setReg 3 9).setKeys keys9and12) 0xE39E) State.pc = some 0x204 := by decide
theorem test_skp_faults : faultOf (run (State.reset.setReg 3 0x19) 0xE39E) = some (.oobKey 0x19) := by decide
theorem test_sknp : after (run ((State.reset.setReg 3 9).setKeys keys9and12) 0xE3A1) State.pc = some 0x202 := by decide
theorem test_waitKey :
    after (run (State.reset.setKeys keys9and12) 0xF30A) (fun t => (t.blocking, t.target, t.pc, t.reg 3)) =
      some (true, 3, 0x202, 0) := by decide
theorem test_poll_lowest_key :
    after (step (waiting keys9and12)) (fun t => (t.reg 3, t.blocking, t.pc)) = some (9, false, 0x200) := by decide
theorem test_poll_no_key : after (step (waiting State.reset.keys)) (fun t => t = waiting State.reset.keys) = some True := by
  simp [after, step, coreStep, waiting, State.hostTurn, State.poll, State.resolveWait, State.reset,
    State.setDisplayChanged, show Keys.lowest (Vector.replicate Config.keyCount false) = none by decide]
theorem test_schedule_before_step :
    after (step { waiting State.reset.keys with schedule := [[.setInputs keys9and12], []] })
      (fun t => (t.reg 3, t.schedule)) = some (9, [[]]) := by decide

/-! ### Timers (T-T) -/

/-- `DT = 9`, `ST = 5`, `DT_REF = 100`, the clock at the given instant. -/
def timed (now : Nat) : State :=
  { State.reset with dt := 9, st := 5, dtRef := millis 100 1, now := millis now 1 }

theorem test_ldDtVx :
    after (run ((State.reset.setReg 3 9).setNow (millis 100 1)) 0xF315) (fun t => (t.dt, t.dtRef)) =
      some (9, millis 100 1) := by decide +kernel
theorem test_ldVxDt : after (run (State.reset.setDt 8) 0xF407) (fun t => t.reg 4) = some 8 := by decide
theorem test_ldStVx :
    after (run ((State.reset.setReg 5 0x1E).setDtRef (millis 100 1)) 0xF518) (fun t => (t.st, t.dtRef)) =
      some (0x1E, millis 100 1) := by decide +kernel
theorem test_age_too_early : ((timed 116).hostOp .ageTimers).dt = 9 := by decide +kernel
theorem test_age_one_interval :
    (((timed 100).hostOp (.advanceClock 1000 60)).hostOp .ageTimers).dt = 8 := by decide +kernel
theorem test_age_once_however_late :
    (((timed 200).hostOp .ageTimers).dt, ((timed 200).hostOp .ageTimers).st, ((timed 200).hostOp .ageTimers).dtRef) =
      (8, 4, millis 200 1) := by decide +kernel
theorem test_tick_stays_at_zero : (State.tick State.reset).dt = 0 ∧ (State.tick State.reset).st = 0 := by decide

/-! ### Load (T-R) -/

theorem test_load_two_bytes :
    (load defaultParams defaultFont (millis 7 1) [0x12, 0x00]).toOption.map
      (fun s => (s.mem.readBytes 0x200 3, s.mem.readBytes 0 5, s.pc, s.dtRef)) =
      some ([0x12, 0x00, 0x00], [0xF0, 0x90, 0x90, 0x90, 0xF0], 0x200, millis 7 1) := by decide +kernel
theorem test_load_odd : load defaultParams defaultFont clockOrigin [0x60, 0x01, 0x12] = .error .invalidProgram := by decide
theorem test_load_capacity :
    (load { defaultParams with stackCapacity := 16 } defaultFont clockOrigin []).toOption.map (fun s => s.stack.length) =
      some 16 := by decide

/-! ### Witnesses: the hypotheses of the statements can be met -/

theorem witness_EncodeOfDecode : decode 0x8126 = some (.shr 1 2) := by decide

/-- A running machine in the middle of a subroutine: one return address on the stack, one cell written, the clock
past the reference instant, and `LD V1, 3` at `PC`. -/
def midRun : State :=
  { State.reset with
    pc := 0x300, sp := 1, stack := State.reset.stack.set 0 0x202, dtRef := millis 1 1, now := millis 2 1,
    mem := Memory.writeBytes [] 0x300 [0x61, 0x03], schedule := [[.setInputs keys9and12]] }

theorem witness_StepKeepsTheStateInvariant :
    midRun.Inv ∧ ∃ t, step midRun = .next t := by
  refine ⟨⟨by decide, by decide, by decide, by decide, fun k hk => ?_, by decide +kernel⟩, _, rfl⟩
  have : k = 0 := Nat.lt_one_iff.1 hk
  subst this
  decide

theorem witness_StepRunsTheDecodedInstruction :
    midRun.hostTurn.blocking = false ∧ midRun.hostTurn.pc.toNat ≤ 0xFFE ∧ midRun.hostTurn.pc.toNat % 2 = 0 ∧
      decode (midRun.hostTurn.mem.read 0x300 ++ midRun.hostTurn.mem.read 0x301) = some (.ldImm 1 3) := by
  decide +kernel

/-- The last word of memory, and an odd address under `ODD_PC_POLICY = execute`. -/
theorem witness_StepRunsTheDecodedInstruction_boundary :
    decode ((State.reset.withFetchWord 16 0x6A2C).mem.read 0x200 ++
      (State.reset.withFetchWord 16 0x6A2C).mem.read 0x201) = some (.ldImm 0xA 0x2C) ∧
    (State.withFetchWord (State.reset.setPc 0xFFE) 16 0x6A2C).fetch = .ok 0x6A2C ∧
    (State.withFetchWord (withParams { defaultParams with oddPc := .execute } (State.reset.setPc 0xFFD)) 16
      0x6A2C).fetch = .ok 0x6A2C := by decide

theorem witness_UnsupportedOpcodeIsAReportedNoOp :
    State.reset.hostTurn = State.reset ∧ State.reset.blocking = false ∧ State.reset.fetch = .ok 0x0000 ∧
      decode 0x0000 = none := by decide

theorem witness_FetchFaultsBeforeItReads :
    0xFFE < (State.reset.setPc 0xFFF).pc.toNat ∧
    ((State.reset.setPc 0xFFD).pc.toNat ≤ 0xFFE ∧ (State.reset.setPc 0xFFD).pc.toNat % 2 = 1 ∧
      State.reset.params.oddPc = .fault) ∧
    ((State.reset.setPc 0xFFE).pc.toNat ≤ 0xFFE ∧ (State.reset.setPc 0xFFE).pc.toNat % 2 = 0) ∧
    ((State.reset.setPc 0xFFF).hostTurn = State.reset.setPc 0xFFF ∧ (State.reset.setPc 0xFFF).blocking = false ∧
      (State.reset.setPc 0xFFF).fetch = .error (.oobFetch 0xFFF)) := by decide

theorem witness_BlockingStepOnlyResolvesTheWait :
    ((waiting State.reset.keys).hostTurn = waiting State.reset.keys ∧ (waiting State.reset.keys).blocking = true ∧
      ∀ k, (waiting State.reset.keys).keys.pressed k = false) ∧
    ((waiting keys9and12).hostTurn = waiting keys9and12 ∧ (waiting keys9and12).blocking = true ∧
      (waiting keys9and12).keys.pressed 9 = true ∧ ∀ j, j < 9 → (waiting keys9and12).keys.pressed j = false) := by
  refine ⟨⟨rfl, rfl, lowest_none.1 (by decide)⟩, rfl, rfl, by decide, ?_⟩
  exact (lowest_some (keys := keys9and12) (k := 9) (by decide)).2.2

theorem witness_OnlyWaitKeyEntersTheWait :
    (∃ t, step (waiting State.reset.keys) = .next t) ∧
    (State.withFetchWord State.reset 16 0xF30A).fetch = .ok (encode (.waitKey 3)) ∧
    ∃ t, step (State.reset.withFetchWord 16 0xF30A) = .next t ∧ t.target = 3 :=
  ⟨⟨_, rfl⟩, by decide, _, rfl, rfl⟩

theorem witness_DisplayChangedExactlyByClearAndDraw :
    (∃ t, step (State.reset.withFetchWord 16 0x00E0) = .next t ∧ t.displayChanged = true) ∧
    ∃ t, step (State.reset.withFetchWord 16 0xD125) = .next t ∧ t.displayChanged = true :=
  ⟨⟨_, rfl, rfl⟩, _, rfl, rfl⟩

theorem witness_IdleStateStaysIdle : (State.reset.withFetchWord 16 0x1200).Idle := by
  refine ⟨?_, ?_, ?_, ?_⟩ <;> decide

/-- Every kind of change that the table of R28 speaks of does happen. -/
theorem witness_StateElementsChangeOnlyByTheirWriters :
    after (exec (.ldI 1) State.reset) (fun t => decide (t.i = State.reset.i)) = some false ∧
    after (exec (.call 1) State.reset) (fun t => (decide (t.stack = State.reset.stack), t.sp)) = some (false, 1) ∧
    after (exec (.ldDtVx 0) (regs2 0 1 1 1)) (fun t => t.dt) = some 1 ∧
    after (exec (.ldDtVx 0) (State.reset.setNow (millis 1 1))) (fun t => t.dtRef) = some (millis 1 1) ∧
    after (exec (.ldStVx 0) (regs2 0 1 1 1)) (fun t => t.st) = some 1 ∧
    after (exec (.bcd 0) ((regs2 0 1 1 1).setI 0x300)) (fun t => t.mem) = some [(0x302, 1)] ∧
    after (exec (.drw 0 1 1) (sprite [0x80] 0 0)) (fun t => t.disp.pixel 0 0) = some true ∧
    after (exec (.waitKey 3) State.reset) (fun t => (t.blocking, t.target)) = some (true, 3) ∧
    after (exec (.rnd 3 0) State.reset) (fun t => t.draws) = some 1 ∧
    after (exec .ret State.reset) (fun t => t.reports.length) = some 1 := by decide +kernel

/-- A register, and `PC`, by some of their writers. -/
theorem witness_StateElementsChangeOnlyByTheirWriters_registers :
    after (exec (.ldImm 3 7) State.reset) (fun t => t.reg 3) = some 7 ∧
    after (exec (.addReg 1 2) (regs2 1 0xFF 2 1)) (fun t => (t.reg 1, t.reg 15)) = some (0, 1) ∧
    after (exec (.loadRegs 1) State.reset) (fun t => (t.reg 0, t.reg 1)) = some (0xF0, 0x90) ∧
    after (exec (.drw 0 1 1) ((sprite [0x80] 0 0).setReg 15 5)) (fun t => t.reg 15) = some 0 ∧
    after (exec (.jpV0 0x300) State.reset) State.pc = some 0x300 ∧
    after (exec (.sknp 0) State.reset) State.pc = some 0x202 := by decide

theorem witness_HardFaultsAreTheListedOnes :
    faultOf (exec (.bcd 0) (State.reset.setI 0xFFE)) = some (.oobMemory 0x1000) ∧
    faultOf (exec (.storeRegs 1) (State.reset.setI 0xFFF)) = some (.oobMemory 0x1000) ∧
    faultOf (exec (.loadRegs 15) (State.reset.setI 0xFF1)) = some (.oobMemory 0x1000) ∧
    faultOf (exec (.drw 0 1 2) (State.reset.setI 0xFFF)) = some (.oobMemory 0x1000) ∧
    isOobDisplay (exec (.drw 0 1 1) (sprite [0x01] 57 0)) = true ∧
    faultOf (exec (.addI 0) ((regs2 0 1 1 1).setI 0xFFF)) = some (.oobIndex 0x1000) ∧
    faultOf (exec (.skp 0) (regs2 0 16 1 1)) = some (.oobKey 16) ∧
    faultOf (exec (.sknp 0) (regs2 0 255 1 1)) = some (.oobKey 255) := by decide

theorem witness_NoInstructionReadsTheSoundTimer :
    (∃ t, exec (.ldStVx 3) (State.reset.setReg 3 7) = .next t ∧ t.st = 7) ∧
    ∃ f, exec (.skp 3) (State.reset.setReg 3 16) = .fault f :=
  ⟨⟨_, rfl, rfl⟩, .oobKey 16, rfl⟩

theorem witness_TimedMachineRefinesTheTimeFreeOne :
    (∃ t, exec (.ldDtVx 3) (timed 100) = .next t ∧ t.dtRef = millis 100 1) ∧
    (∃ f, exec (.addI 3) (((timed 100).setReg 3 1).setI 0xFFF) = .fault f) ∧
    (∃ t, step midRun = .next t) ∧ coreStep (State.reset.setPc 0x1000) = .fault (.oobFetch 0x1000) ∧
    step (State.reset.setPc 0x1000) = .fault (.oobFetch 0x1000) :=
  ⟨⟨_, rfl, rfl⟩, ⟨.oobIndex 0x1000, by simp [exec, execAddI, raise]⟩, ⟨_, rfl⟩, rfl, rfl⟩

/-- Two memories built in different orders, and one that was written back to what it was. -/
theorem witness_CanonicalMemoriesThatReadAlikeAreEqual :
    Memory.wf (Memory.write (Memory.write [] 0x300 1) 0x200 2) = true ∧
    Memory.write (Memory.write [] 0x300 1) 0x200 2 = Memory.write (Memory.write [] 0x200 2) 0x300 1 ∧
    Memory.write (Memory.write [] 0x000 1) 0x000 0xF0 = [] := by decide

theorem witness_ResultAndFlag :
    State.reset.params.vfOrder = .flagLast ∧
    (withParams { defaultParams with vfOrder := .resultLast } State.reset).params.vfOrder = .resultLast ∧
    (1 : Reg) ≠ 15 := by decide

theorem witness_HasEncoding :
    HasEncoding (.call 0xABC) (0x2000 + (0xABC : Addr).toNat) ∧
    HasEncoding (.ldImm 15 0xFF) (0x6000 + 0x100 * (15 : Reg).val + (0xFF : Byte).toNat) :=
  ⟨⟨by decide, by decide⟩, by decide, by decide⟩

theorem witness_ShiftsByOneSetTheBitShiftedOut :
    (0x05 : Nat) = (if (regs2 1 0x05 2 0x08).params.shiftSrc = .x then ((regs2 1 0x05 2 0x08).reg 1).toNat
      else ((regs2 1 0x05 2 0x08).reg 2).toNat) := by decide

theorem witness_RandomByteIsDrawnOnceAndMasked :
    (State.reset.params.rand = .draw ∧ Config.randByte 0 = Config.randByte State.reset.draws) ∧
    (withParams { defaultParams with rand := .const 0x2A } State.reset).params.rand = .const 0x2A :=
  ⟨⟨rfl, rfl⟩, rfl⟩

theorem witness_CallPushesThePostAdvancePc :
    ({ State.reset with sp := 24 } : State).sp = State.reset.params.stackCapacity ∧
    ({ State.reset with sp := 23 } : State).sp ≠ State.reset.params.stackCapacity ∧
    ({ State.reset with sp := 23 } : State).sp < State.reset.stack.length := by decide

theorem witness_ReturnPopsTheTopOfTheStack :
    State.reset.sp = 0 ∧ midRun.sp ≠ 0 ∧ midRun.stack[midRun.sp - 1]? = some 0x202 := by decide

theorem witness_ReturnAfterCallRestoresPcAndSp :
    ({ State.reset with sp := 23 } : State).stack.length = State.reset.params.stackCapacity ∧
    ({ State.reset with sp := 23 } : State).sp < State.reset.params.stackCapacity := by decide

theorem witness_AddToIndexFaultsAboveTwelveBits :
    ((State.reset.setReg 2 0xFF).setI 0xF00).i.toNat + ((State.reset.setReg 2 0xFF).reg 2).toNat ≤ 0xFFF ∧
    0xFFF < ((State.reset.setReg 2 0xFF).setI 0xF01).i.toNat + ((State.reset.setReg 2 0xFF).reg 2).toNat := by decide

theorem witness_MemoryTransferBounds :
    State.reset.mem.wf = true ∧
    (State.reset.setI 0xFFD).i.toNat + 2 ≤ 0xFFF ∧ 0xFFF < (State.reset.setI 0xFFE).i.toNat + 2 ∧
    (State.reset.setI 0xFF0).i.toNat + (15 : Reg).val ≤ 0xFFF ∧
    0xFFF < (State.reset.setI 0xFF1).i.toNat + (15 : Reg).val := by decide

/-- The self-modifying row of T-M: `V[0] = 0x12`, `V[1] = 0x00` stored at 0x202. -/
theorem witness_FetchSeesTheBytesJustStored :
    (State.reset.setI 0x202).mem.wf = true ∧ (State.reset.setI 0x202).i.toNat + (1 : Reg).val ≤ 0xFFF ∧
    (1 : Reg).val = (0 : Reg).val + 1 ∧ (1 : Reg) ≤ 1 ∧
    (0x202 : Word).toNat = (State.reset.setI 0x202).i.toNat + (0 : Reg).val ∧ (0x202 : Word).toNat % 2 = 0 := by decide

/-- The last legal position of an 8-wide row (T-D): `V[0] = 56`, `V[1] = 31`. -/
theorem witness_DrawInBounds : DrawInBounds (sprite [0xFF] 56 31) 0 1 1 ∧ SpriteBit (sprite [0xFF] 56 31) 1 7 0 := by
  refine ⟨⟨.inr (by decide), fun c r h => ?_⟩, by decide, by decide, by decide⟩
  have h1 : r < 1 := h.1
  have h2 : c < 8 := h.2.1
  have hx : ((sprite [0xFF] 56 31).reg 0).toNat = 56 := by decide
  have hy : ((sprite [0xFF] 56 31).reg 1).toNat = 31 := by decide
  omega

/-- A collision, and none. -/
theorem witness_CollisionFlagTellsAPixelWentOff :
    (∃ t, exec (.drw 0 1 1) { sprite [0xC0] 0 0 with disp := Display.clear.flip 0 0 } = .next t ∧
      (Display.clear.flip 0 0).pixel 0 0 = true ∧ t.disp.pixel 0 0 = false) ∧
    ∃ t, exec (.drw 0 1 1) (sprite [0xC0] 0 0) = .next t ∧ t.reg 15 = 0 :=
  ⟨⟨_, rfl, by decide, by decide⟩, _, rfl, by decide⟩

theorem witness_DrawFaultsOffMemoryThenOffScreen :
    (0 < (2 : Nibble).toNat ∧ 0xFFF < (State.reset.setI 0xFFF).i.toNat + (2 : Nibble).toNat - 1) ∧
    ((sprite [0x01] 57 0).i.toNat + (1 : Nibble).toNat - 1 ≤ 0xFFF ∧ SpriteBit (sprite [0x01] 57 0) 1 7 0 ∧
      63 < ((sprite [0x01] 57 0).reg 0).toNat + 7) :=
  ⟨by decide, by decide, ⟨by decide, by decide, by decide⟩, by decide⟩

theorem witness_DrawingTwiceRestoresTheDisplay :
    (0 : Reg) ≠ 15 ∧ (1 : Reg) ≠ 15 ∧ ∀ r c, (sprite [0xFF] 56 31).disp.pixel r c = false :=
  ⟨by decide, by decide, pixel_clear⟩

theorem witness_KeySkipsReadTheLatch :
    ((State.reset.setReg 3 15).reg 3).toNat ≤ 15 ∧ 15 < ((State.reset.setReg 3 16).reg 3).toNat := by decide

/-- Just too early, exactly one interval, and the inner conditions on the timers (T-T). -/
theorem witness_AgeTimersDecrementsAtMostOnce :
    (timed 116).now.ms - (timed 116).dtRef.ms < (timed 116).params.cadence.ms ∧
    ((timed 100).hostOp (.advanceClock 1000 60)).params.cadence.ms ≤
      ((timed 100).hostOp (.advanceClock 1000 60)).now.ms - (timed 100).dtRef.ms ∧
    State.reset.dt = 0 ∧ (timed 0).dt ≠ 0 ∧ State.reset.st = 0 ∧ (timed 0).st ≠ 0 ∧
    (timed 0).params.stAges = true ∧
    (withParams { defaultParams with stAges := false } (timed 0)).params.stAges = false := by decide +kernel

theorem witness_LoadRefusesOddImages :
    ([0x60, 0x01, 0x12] : List Byte).length % 2 = 1 ∧ ([0x60, 0x01] : List Byte).length % 2 = 0 := by decide

theorem witness_LoadMakesTheResetState :
    ([0x12, 0x00] : List Byte).length % 2 = 0 ∧ ([0x12, 0x00] : List Byte).length ≤ 3584 ∧
    (List.replicate 3586 (0 : Byte)).length % 2 = 0 ∧ 3584 < (List.replicate 3586 (0 : Byte)).length := by
  refine ⟨by decide, by decide, ?_, ?_⟩
  · rw [List.length_replicate]
  · rw [List.length_replicate]; decide

theorem witness_HardFaultIsClearedOnlyByLoad :
    (∃ t, step State.reset = .next t) ∧ step (State.reset.setPc 0x1000) = .fault (.oobFetch 0x1000) ∧
    (∀ c ∈ [HostCall.step, .op .ageTimers], ∀ p font image, c ≠ .load p font image) ∧
    (∃ s, load defaultParams defaultFont clockOrigin [0x12, 0x00] = .ok s) ∧
    load defaultParams defaultFont clockOrigin [0x12] = .error .invalidProgram :=
  ⟨⟨_, rfl⟩, rfl, by simp, ⟨_, rfl⟩, by decide⟩

/-! ### HOST's turn and the clock -/

/-- A state with two turns scheduled, and one with none. -/
theorem witness_HostTurnDoesTheScheduledOperations :
    State.reset.schedule = [] ∧
    { State.reset with schedule := [[.advanceClock 1 2, .display], [.ageTimers]] }.schedule =
      [.advanceClock 1 2, .display] :: [[.ageTimers]] ∧
    ∃ t, step { State.reset with schedule := [[.display], []] } = .next t :=
  ⟨rfl, rfl, _, rfl⟩

theorem witness_HostOperationsChangeOnlyWhatTheyMay :
    ((timed 100).hostOp (.advanceClock 1 2)).now.ms = 201 / 2 ∧
    ((timed 100).hostOp (.advanceClock 1 0)).now = (timed 100).now := by decide +kernel

/-- The clock over a `load` that fails, time that passes without a Machine State, and a second `load`. -/
theorem witness_TheClockNeverGoesBack :
    (∃ t, step (timed 100) = .next t) ∧
    ([HostCall.load defaultParams defaultFont [0x12], .op (.advanceClock 5 1),
      .load defaultParams defaultFont []].foldl Session.call (.running (timed 100))).now = millis 105 1 :=
  ⟨⟨_, rfl⟩, by decide +kernel⟩

theorem witness_OnlySettingTheDelayTimerReadsTheClock :
    (∀ x, Instr.ldVxDt 3 ≠ .ldDtVx x) ∧ (∃ t, exec (.ldVxDt 3) (timed 100) = .next t) ∧
    exec (.skp 3) (State.reset.setReg 3 16) = .fault (.oobKey 16) :=
  ⟨by simp, ⟨_, rfl⟩, rfl⟩

end Sys2Proof.Tests
end

section
/-! PROOFS. The step on a word that does not decode (R68). -/

namespace Sys2Proof.Machine

/-- CORE's cycle once the fetch has succeeded (R64). -/
theorem step_eq_runWord {s : State} {w : Word} (hb : s.hostTurn.blocking = false) (hf : s.hostTurn.fetch = .ok w) :
    step s = runWord w s.hostTurn.startInstr := by
  simp [step, coreStep, hb, hf]

theorem runWord_of_decode_none {w : Word} (hd : decode w = none) (s : State) :
    runWord w s = .next (s.report .unsupportedOpcode w) := by
  simp [runWord, hd]

@[simp] theorem startInstr_pc (s : State) : s.startInstr.pc = s.pc + 2 := rfl

@[simp] theorem startInstr_displayChanged (s : State) : s.startInstr.displayChanged = false := rfl

@[simp] theorem startInstr_reports (s : State) : s.startInstr.reports = s.reports := rfl

/-- A report made as soon as the instruction starts carries the address it was fetched from, `pc0` (R175). -/
theorem startInstr_report (s : State) (e : RecoveredError) (w : Word) :
    s.startInstr.report e w = s.startInstr.addReport ⟨e, w, s.pc⟩ := by
  have hpc0 : s.startInstr.pc - 2 = s.pc := by
    rw [startInstr_pc, BitVec.add_sub_cancel]
  rw [State.report, hpc0]

/-- Settles O7: the step is the start of an instruction followed by one report, and each of the two has its frame. -/
theorem unsupportedOpcodeIsAReportedNoOp : Obligations.UnsupportedOpcodeIsAReportedNoOp := by
  rintro s _ w rfl hb hf hd
  have hstep : step s = .next (s.hostTurn.startInstr.addReport ⟨.unsupportedOpcode, w, s.hostTurn.pc⟩) := by
    rw [step_eq_runWord hb hf, runWord_of_decode_none hd, startInstr_report]
  refine ⟨_, hstep, ?pc, ?displayChanged, ?reports, ?frame⟩
  case pc => rw [State.addReport_pc, startInstr_pc]
  case displayChanged => rw [State.addReport_displayChanged, startInstr_displayChanged]
  case reports => rw [State.addReport_reports, startInstr_reports]
  case frame => exact (startInstr_frame _).trans (addReport_frame _ _)

end Sys2Proof.Machine
end

section
/-! PROOFS. The encodings as numbers, and decoding what was encoded (30_encoding.md rules R61, R65). -/

namespace Sys2Proof

/-! ### The words of the encoding formats as numbers (R61) -/

theorem encAddr_toNat (op : Nibble) (a : Addr) : (encAddr op a).toNat = 0x1000 * op.toNat + a.toNat := by
  rw [encAddr, BitVec.toNat_append, ← Nat.shiftLeft_add_eq_or_of_lt a.isLt, Nat.shiftLeft_eq, Nat.mul_comm]

theorem encXNN_toNat (op : Nibble) (x : Reg) (nn : Byte) :
    (encXNN op x nn).toNat = 0x1000 * op.toNat + 0x100 * x.val + nn.toNat := by
  rw [encXNN_eq, encAddr_toNat, BitVec.toNat_append, ← Nat.shiftLeft_add_eq_or_of_lt nn.isLt, Nat.shiftLeft_eq,
    show (BitVec.ofFin x : Nibble).toNat = x.val from rfl]
  omega

theorem encXYN_toNat (op : Nibble) (x y : Reg) (n : Nibble) :
    (encXYN op x y n).toNat = 0x1000 * op.toNat + 0x100 * x.val + 0x10 * y.val + n.toNat := by
  rw [encXYN_eq, encXNN_toNat, BitVec.toNat_append, ← Nat.shiftLeft_add_eq_or_of_lt n.isLt, Nat.shiftLeft_eq,
    show (BitVec.ofFin y : Nibble).toNat = y.val from rfl]
  omega

/-! ### Decoding -/

/-- The decoder reads the operand fields of every format back as the encoder wrote them (R61, R65). -/
theorem decode_encode (i : Instr) : decode (encode i) = some i := by
  cases i with
  | cls | ret => rfl
  | jp | call | ldI | jpV0 => simp [encode, decode]
  | seImm | sneImm | ldImm | addImm | rnd => simp [encode, decode]
  | seReg | sneReg | drw => simp [encode, decode]
  | ldReg | orReg | andReg | xorReg | addReg | sub | shr | subn | shl => simp [encode, decode, decode8]
  | skp | sknp => simp [encode, decode, decodeE]
  | ldVxDt | waitKey | ldDtVx | ldStVx | addI | ldFont | bcd | storeRegs | loadRegs =>
      simp [encode, decode, decodeF]

/-- Families 5 and 9 have a meaning for the low nibble 0 only (R67, R85, R86). -/
theorem decode_encXYN_eq_none {op n : Nibble} (x y : Reg) (hop : op = 0x5 ∨ op = 0x9) (hn : n ≠ 0#4) :
    decode (encXYN op x y n) = none := by
  rcases hop with rfl | rfl <;> simp [decode, hn]

end Sys2Proof

namespace Sys2Proof.Machine

/-- A word's number gives the word back. -/
theorem ofNat_of_toNat_eq {u : Word} {w : Nat} (h : u.toNat = w) : BitVec.ofNat 16 w = u := by
  rw [← h, BitVec.ofNat_toNat, BitVec.setWidth_eq]

/-- Once the encoder's half is known, decoding what was encoded gives the other one. -/
theorem hasEncoding_of_toNat {i : Instr} {w : Nat} (h : (encode i).toNat = w) : HasEncoding i w := by
  refine ⟨h, ?_⟩
  rw [ofNat_of_toNat_eq h, decode_encode]

theorem HasEncoding.ofNat_eq {i : Instr} {w : Nat} (h : HasEncoding i w) : BitVec.ofNat 16 w = encode i :=
  ofNat_of_toNat_eq h.1

end Sys2Proof.Machine
end

section
/-! PROOFS. Control transfer (40_flow.md): jump, call, return and the skips. -/

namespace Sys2Proof.Machine

/-! ### Encodings -/

theorem hasEncoding_jp (a : Addr) : HasEncoding (.jp a) (0x1000 + a.toNat) :=
  hasEncoding_of_toNat (encAddr_toNat 0x1 a)

theorem hasEncoding_call (a : Addr) : HasEncoding (.call a) (0x2000 + a.toNat) :=
  hasEncoding_of_toNat (encAddr_toNat 0x2 a)

theorem hasEncoding_ret : HasEncoding .ret 0x00EE := hasEncoding_of_toNat rfl

theorem hasEncoding_seImm (x : Reg) (nn : Byte) : HasEncoding (.seImm x nn) (0x3000 + 0x100 * x.val + nn.toNat) :=
  hasEncoding_of_toNat (encXNN_toNat 0x3 x nn)

theorem hasEncoding_sneImm (x : Reg) (nn : Byte) : HasEncoding (.sneImm x nn) (0x4000 + 0x100 * x.val + nn.toNat) :=
  hasEncoding_of_toNat (encXNN_toNat 0x4 x nn)

theorem hasEncoding_seReg (x y : Reg) : HasEncoding (.seReg x y) (0x5000 + 0x100 * x.val + 0x10 * y.val) :=
  hasEncoding_of_toNat (encXYN_toNat 0x5 x y 0x0)

theorem hasEncoding_sneReg (x y : Reg) : HasEncoding (.sneReg x y) (0x9000 + 0x100 * x.val + 0x10 * y.val) :=
  hasEncoding_of_toNat (encXYN_toNat 0x9 x y 0x0)

/-- A number in family 5 or 9 whose low nibble is not 0 does not decode (R67). -/
theorem decode_ofNat_eq_none (op : Nibble) (x y : Reg) {n : Nat} (hop : op = 0x5 ∨ op = 0x9) (hpos : 0 < n)
    (hn : n < 16) : decode (BitVec.ofNat 16 (0x1000 * op.toNat + 0x100 * x.val + 0x10 * y.val + n)) = none := by
  have hlow : (BitVec.ofNat 4 n).toNat = n := Nat.mod_eq_of_lt hn
  have hword := encXYN_toNat op x y (BitVec.ofNat 4 n)
  rw [hlow] at hword
  rw [ofNat_of_toNat_eq hword]
  refine decode_encXYN_eq_none x y hop fun h0 => hpos.ne ?_
  rw [← hlow, h0]
  rfl

/-! ### What the operations of control transfer leave unchanged -/

theorem push_frame (s : State) (p : Word) : Frame [.stack] s (s.push p) := by
  intro q hq
  cases q <;> simp_all [Part.Kept]

theorem pop_frame (s : State) : Frame [.stack] s s.pop := by
  intro q hq
  cases q <;> simp_all [Part.Kept]

theorem push_slot {s : State} (p : Word) (h : s.sp < s.stack.length) : (s.push p).stack[s.sp]? = some p := by
  rw [State.push_stack, List.getElem?_set_self h]

theorem push_otherSlot {s : State} (p : Word) {k : Nat} (h : k ≠ s.sp) : (s.push p).stack[k]? = s.stack[k]? := by
  rw [State.push_stack, List.getElem?_set_ne h.symm]

theorem top_eq {s : State} {p : Word} (h : s.stack[s.sp - 1]? = some p) : s.top = p := by
  rw [State.top, List.getD_eq_getElem?_getD, h, Option.getD_some]

/-- A recovered error has no effect but its record, which names the address of the instruction, `pc0` (R172, R175). -/
theorem report_effect (s : State) (e : RecoveredError) (w : Word) :
    (s.report e w).reports = s.reports ++ [⟨e, w, s.pc - 2⟩] ∧ Frame [.reports] s (s.report e w) :=
  ⟨rfl, addReport_frame s _⟩

theorem jumpTarget_toNat (a : Addr) : (jumpTarget a).toNat = a.toNat :=
  Nat.mod_eq_of_lt (by omega)

/-! ### The instructions -/

theorem exec_jp (s : State) (a : Addr) : exec (.jp a) s = .next (s.setPc (jumpTarget a)) := rfl

theorem exec_call_of_full {s : State} (a : Addr) (h : s.sp = s.params.stackCapacity) :
    exec (.call a) s = .next (s.report .stackOverflow (encode (.call a))) := if_pos h

theorem exec_call_of_room {s : State} (a : Addr) (h : s.sp ≠ s.params.stackCapacity) :
    exec (.call a) s = .next ((s.push s.pc).setPc (jumpTarget a)) := if_neg h

theorem exec_ret_of_empty {s : State} (h : s.sp = 0) :
    exec .ret s = .next (s.report .stackUnderflow (encode .ret)) := if_pos h

theorem exec_ret_of_nonempty {s : State} (h : s.sp ≠ 0) : exec .ret s = .next (s.pop.setPc s.top) := if_neg h

/-- What an instruction that is a skip on a condition does (R83 to R86). -/
theorem skip_effect {i : Instr} {s : State} {c : Prop} [Decidable c] (h : exec i s = .next (s.skipIf (decide c))) :
    ∃ t, exec i s = .next t ∧ t.pc = (if c then s.pc + 2 else s.pc) ∧ Frame [.pc] s t := by
  refine ⟨_, h, ?_, skipIf_frame s _⟩
  simp only [skipIf_pc, decide_eq_true_eq]

/-- What an instruction that is a skip unless a condition holds does (R84, R86). -/
theorem skipUnless_effect {i : Instr} {s : State} {c : Prop} [Decidable c]
    (h : exec i s = .next (s.skipIf (decide ¬c))) :
    ∃ t, exec i s = .next t ∧ t.pc = (if c then s.pc else s.pc + 2) ∧ Frame [.pc] s t := by
  simpa only [ite_not] using skip_effect h

/-! ### The statements -/

/-- Settles O27: `1nnn` is one write of `PC`. -/
theorem jumpStoresItsAddress : Obligations.JumpStoresItsAddress := fun s a =>
  ⟨hasEncoding_jp a, _, exec_jp s a, jumpTarget_toNat a, setPc_frame s _⟩

/-- Settles O29: on a full stack a report, otherwise a push and a jump. -/
theorem callPushesThePostAdvancePc : Obligations.CallPushesThePostAdvancePc := by
  intro s a
  refine ⟨hasEncoding_call a, fun hfull => ⟨_, exec_call_of_full a hfull, ?_⟩,
    fun hroom => ⟨_, exec_call_of_room a hroom, jumpTarget_toNat a, rfl, push_slot s.pc,
      fun k hk => push_otherSlot s.pc hk, ?_⟩⟩
  · rw [(hasEncoding_call a).ofNat_eq]
    exact report_effect s _ _
  · exact ((push_frame s s.pc).trans (setPc_frame _ _)).mono (by simp)

/-- Settles O30: on an empty stack a report, otherwise the top slot becomes `PC` and `SP` goes down. -/
theorem returnPopsTheTopOfTheStack : Obligations.ReturnPopsTheTopOfTheStack := by
  refine ⟨hasEncoding_ret, fun s => ⟨fun hempty => ⟨_, exec_ret_of_empty hempty, report_effect s _ _⟩,
    fun hsp => ⟨_, exec_ret_of_nonempty hsp, rfl, fun p hp => top_eq hp, rfl, ?_⟩⟩⟩
  exact ((pop_frame s).trans (setPc_frame _ _)).mono (by simp)

/-- Settles O32: each of the four is a skip on its condition. -/
theorem skipsAddTwoWhenTheirConditionHolds : Obligations.SkipsAddTwoWhenTheirConditionHolds := by
  intro s x y nn
  refine ⟨?encodings, ?unsupported, ?seImm, ?sneImm, ?seReg, ?sneReg⟩
  case encodings =>
    exact ⟨hasEncoding_seImm x nn, hasEncoding_sneImm x nn, hasEncoding_seReg x y, hasEncoding_sneReg x y⟩
  case unsupported =>
    exact fun n hpos hn =>
      ⟨decode_ofNat_eq_none 0x5 x y (.inl rfl) hpos hn, decode_ofNat_eq_none 0x9 x y (.inr rfl) hpos hn⟩
  case seImm => exact skip_effect rfl
  case sneImm => exact skipUnless_effect rfl
  case seReg => exact skip_effect rfl
  case sneReg => exact skipUnless_effect rfl

end Sys2Proof.Machine
end

section
/-! PROOFS. Register load, addition of an immediate and the bitwise forms (41_alu.md): `6xnn 7xnn 8xy0-8xy3`. Each is one
register write, so its effect and its frame are those of `setReg`. -/

namespace Sys2Proof.Machine

/-! ### Encodings -/

theorem hasEncoding_ldImm (x : Reg) (nn : Byte) : HasEncoding (.ldImm x nn) (0x6000 + 0x100 * x.val + nn.toNat) :=
  hasEncoding_of_toNat (encXNN_toNat 0x6 x nn)

theorem hasEncoding_addImm (x : Reg) (nn : Byte) : HasEncoding (.addImm x nn) (0x7000 + 0x100 * x.val + nn.toNat) :=
  hasEncoding_of_toNat (encXNN_toNat 0x7 x nn)

theorem hasEncoding_ldReg (x y : Reg) : HasEncoding (.ldReg x y) (0x8000 + 0x100 * x.val + 0x10 * y.val) :=
  hasEncoding_of_toNat (encXYN_toNat 0x8 x y 0x0)

/-- Family 8 puts its low nibble last: the number of the word, with that nibble added to 0x8000. -/
theorem encXYN_family8_toNat (x y : Reg) (n : Nibble) :
    (encXYN 0x8 x y n).toNat = 0x8000 + n.toNat + 0x100 * x.val + 0x10 * y.val := by
  rw [encXYN_toNat, show (0x8 : Nibble).toNat = 8 from rfl]
  omega

theorem hasEncoding_orReg (x y : Reg) : HasEncoding (.orReg x y) (0x8001 + 0x100 * x.val + 0x10 * y.val) :=
  hasEncoding_of_toNat (encXYN_family8_toNat x y 0x1)

theorem hasEncoding_andReg (x y : Reg) : HasEncoding (.andReg x y) (0x8002 + 0x100 * x.val + 0x10 * y.val) :=
  hasEncoding_of_toNat (encXYN_family8_toNat x y 0x2)

theorem hasEncoding_xorReg (x y : Reg) : HasEncoding (.xorReg x y) (0x8003 + 0x100 * x.val + 0x10 * y.val) :=
  hasEncoding_of_toNat (encXYN_family8_toNat x y 0x3)

/-! ### The write of one register -/

theorem setReg_reg_same (s : State) (x : Reg) (b : Byte) : (s.setReg x b).reg x = b := by
  rw [State.setReg_reg, if_pos rfl]

theorem setReg_regsKeptExcept (s : State) (x : Reg) (b : Byte) : RegsKeptExcept [x] s (s.setReg x b) := by
  intro j hj
  rw [State.setReg_reg, if_neg (List.ne_of_not_mem_cons hj)]

/-- What an instruction that is one register write does. -/
theorem setReg_effect {i : Instr} {s : State} {x : Reg} {b : Byte} (h : exec i s = .next (s.setReg x b)) :
    ∃ t, exec i s = .next t ∧ t.reg x = b ∧ RegsKeptExcept [x] s t ∧ Frame [.regs] s t :=
  ⟨_, h, setReg_reg_same s x b, setReg_regsKeptExcept s x b, setReg_frame s x b⟩

/-- The same, with the written byte given bit by bit. -/
theorem setReg_effect_bits {i : Instr} {s : State} {x : Reg} {r : Byte} {f : Nat → Bool}
    (h : exec i s = .next (s.setReg x r)) (hr : ∀ b, r.getLsbD b = f b) :
    ∃ t, exec i s = .next t ∧ (∀ b, (t.reg x).getLsbD b = f b) ∧ RegsKeptExcept [x] s t ∧ Frame [.regs] s t := by
  obtain ⟨t, hexec, hx, hkept, hframe⟩ := setReg_effect h
  exact ⟨t, hexec, fun b => by rw [hx, hr], hkept, hframe⟩

theorem addBytes_toNat (a b : Byte) : (addBytes a b).toNat = (a.toNat + b.toNat) % 256 :=
  BitVec.toNat_ofNat _ _

/-! ### The instructions -/

theorem exec_ldImm (s : State) (x : Reg) (nn : Byte) : exec (.ldImm x nn) s = .next (s.setReg x nn) := rfl

theorem exec_addImm (s : State) (x : Reg) (nn : Byte) :
    exec (.addImm x nn) s = .next (s.setReg x (addBytes (s.reg x) nn)) := rfl

theorem exec_ldReg (s : State) (x y : Reg) : exec (.ldReg x y) s = .next (s.setReg x (s.reg y)) := rfl

theorem exec_orReg (s : State) (x y : Reg) : exec (.orReg x y) s = .next (s.setReg x (s.reg x ||| s.reg y)) := rfl

theorem exec_andReg (s : State) (x y : Reg) : exec (.andReg x y) s = .next (s.setReg x (s.reg x &&& s.reg y)) := rfl

theorem exec_xorReg (s : State) (x y : Reg) : exec (.xorReg x y) s = .next (s.setReg x (s.reg x ^^^ s.reg y)) := rfl

/-! ### The statements -/

/-- Settles O20: each of the two is one register write. -/
theorem loadAndMoveWriteTheirRegister : Obligations.LoadAndMoveWriteTheirRegister :=
  ⟨fun s x nn => ⟨hasEncoding_ldImm x nn, setReg_effect (exec_ldImm s x nn)⟩,
    fun s x y => ⟨hasEncoding_ldReg x y, setReg_effect (exec_ldReg s x y)⟩⟩

/-- Settles O21: one write of the wrapped sum, which keeps `VF` as any other register. -/
theorem addImmediateWrapsWithoutFlag : Obligations.AddImmediateWrapsWithoutFlag := by
  intro s x nn
  obtain ⟨t, hexec, hx, hkept, hframe⟩ := setReg_effect (exec_addImm s x nn)
  refine ⟨hasEncoding_addImm x nn, t, hexec, ?sum, fun hvf => hkept 15 ?notWritten, hkept, hframe⟩
  case sum => rw [hx, addBytes_toNat]
  case notWritten => exact fun hmem => hvf (List.mem_singleton.mp hmem).symm

/-- Settles O22: each of the three is one write of the bitwise result. -/
theorem bitwiseFormsActOnEveryBit : Obligations.BitwiseFormsActOnEveryBit := by
  intro s x y
  refine ⟨⟨hasEncoding_orReg x y, hasEncoding_andReg x y, hasEncoding_xorReg x y⟩, ?or, ?and, ?xor⟩
  case or => exact setReg_effect_bits (exec_orReg s x y) fun _ => BitVec.getLsbD_or
  case and => exact setReg_effect_bits (exec_andReg s x y) fun _ => BitVec.getLsbD_and
  case xor => exact setReg_effect_bits (exec_xorReg s x y) fun _ => BitVec.getLsbD_xor

end Sys2Proof.Machine
end

section
/-! PROOFS. The index register (42_index_mem.md): `annn` and `fx29`. Each is one write of `I`, so its effect and its frame
are those of `setI`. -/

namespace Sys2Proof.Machine

/-! ### Encodings -/

theorem hasEncoding_ldI (a : Addr) : HasEncoding (.ldI a) (0xA000 + a.toNat) :=
  hasEncoding_of_toNat (encAddr_toNat 0xA a)

/-- The forms `fx__` are named by their low byte: the number of the word, with that byte added to 0xF000. -/
theorem encXNN_familyF_toNat (x : Reg) (nn : Byte) : (encXNN 0xF x nn).toNat = 0xF000 + nn.toNat + 0x100 * x.val := by
  rw [encXNN_toNat, show (0xF : Nibble).toNat = 15 from rfl]
  omega

theorem hasEncoding_ldFont (x : Reg) : HasEncoding (.ldFont x) (0xF029 + 0x100 * x.val) :=
  hasEncoding_of_toNat (encXNN_familyF_toNat x 0x29)

/-! ### The write of the index register -/

theorem setI_frame (s : State) (a : Addr) : Frame [.index] s (s.setI a) := by
  intro p hp
  cases p <;> simp_all [Part.Kept]

/-- The glyphs stand five bytes apart from address 0, the last of them at 75: no sum leaves the 12 bits of `I` (R122). -/
theorem glyphAddr_toNat (b : Byte) : (glyphAddr b).toNat = 5 * (b.toNat % 16) := by
  rw [glyphAddr, BitVec.toNat_ofNat, Config.fontBase, Config.glyphHeight]
  omega

/-! ### The instructions -/

theorem exec_ldI (s : State) (a : Addr) : exec (.ldI a) s = .next (s.setI a) := rfl

theorem exec_ldFont (s : State) (x : Reg) : exec (.ldFont x) s = .next (s.setI (glyphAddr (s.reg x))) := rfl

/-! ### The statements -/

/-- Settles O33: each of the two is one write of `I`. -/
theorem loadIndexAndGlyphAddress : Obligations.LoadIndexAndGlyphAddress :=
  ⟨fun s a => ⟨hasEncoding_ldI a, _, exec_ldI s a, State.setI_i s a, setI_frame s a⟩,
    fun s x => ⟨hasEncoding_ldFont x, _, exec_ldFont s x, glyphAddr_toNat (s.reg x), setI_frame s _⟩⟩

end Sys2Proof.Machine
end

section
/-! PROOFS. The display (43_display.md): `00e0`. It is one write of the display, so its effect and its frame are those of
`State.drawn`. -/

namespace Sys2Proof.Machine

theorem hasEncoding_cls : HasEncoding .cls 0x00E0 := hasEncoding_of_toNat rfl

theorem exec_cls (s : State) : exec .cls s = .next (s.drawn Display.clear) := rfl

/-- Settles O40: `00e0` draws the clear display. -/
theorem clearTurnsEveryPixelOff : Obligations.ClearTurnsEveryPixelOff :=
  ⟨hasEncoding_cls, fun s =>
    ⟨_, exec_cls s, pixel_clear, State.drawn_displayChanged s Display.clear, drawn_frame s Display.clear⟩⟩

end Sys2Proof.Machine
end

section
/-! PROOFS. The timers (44_keys_timers.md): `fx07`, `fx15` and `fx18`. The first is one register write; the other two are
writes of a timer, and only that of `DT` writes `DT_REF` too. -/

namespace Sys2Proof.Machine

/-! ### Encodings -/

theorem hasEncoding_ldVxDt (x : Reg) : HasEncoding (.ldVxDt x) (0xF007 + 0x100 * x.val) :=
  hasEncoding_of_toNat (encXNN_familyF_toNat x 0x07)

theorem hasEncoding_ldDtVx (x : Reg) : HasEncoding (.ldDtVx x) (0xF015 + 0x100 * x.val) :=
  hasEncoding_of_toNat (encXNN_familyF_toNat x 0x15)

theorem hasEncoding_ldStVx (x : Reg) : HasEncoding (.ldStVx x) (0xF018 + 0x100 * x.val) :=
  hasEncoding_of_toNat (encXNN_familyF_toNat x 0x18)

/-! ### The writes of the timers and of the reference instant -/

theorem setDt_frame (s : State) (b : Byte) : Frame [.delayTimer] s (s.setDt b) := by
  intro p hp
  cases p <;> simp_all [Part.Kept]

theorem setSt_frame (s : State) (b : Byte) : Frame [.soundTimer] s (s.setSt b) := by
  intro p hp
  cases p <;> simp_all [Part.Kept]

theorem setDtRef_frame (s : State) (t : Time) : Frame [.dtRef] s (s.setDtRef t) := by
  intro p hp
  cases p <;> simp_all [Part.Kept]

/-! ### The instructions -/

theorem exec_ldVxDt (s : State) (x : Reg) : exec (.ldVxDt x) s = .next (s.setReg x s.dt) := rfl

theorem exec_ldDtVx (s : State) (x : Reg) : exec (.ldDtVx x) s = .next ((s.setDt (s.reg x)).setDtRef s.now) := rfl

theorem exec_ldStVx (s : State) (x : Reg) : exec (.ldStVx x) s = .next (s.setSt (s.reg x)) := rfl

/-! ### The statement -/

/-- Settles O47: each of the three is the write of the element it names; `fx15` writes `DT_REF` after `DT`. -/
theorem timerInstructionsMoveTheTimers : Obligations.TimerInstructionsMoveTheTimers := by
  intro s x
  refine ⟨⟨hasEncoding_ldVxDt x, hasEncoding_ldDtVx x, hasEncoding_ldStVx x⟩, ?readDelay, ?setDelay, ?setSound⟩
  case readDelay => exact setReg_effect (exec_ldVxDt s x)
  case setDelay =>
    refine ⟨_, exec_ldDtVx s x, ?dt, State.setDtRef_dtRef _ _, (setDt_frame s _).trans (setDtRef_frame _ _)⟩
    rw [State.setDtRef_dt, State.setDt_dt]
  case setSound => exact ⟨_, exec_ldStVx s x, State.setSt_st s _, setSt_frame s _⟩

end Sys2Proof.Machine
end

section
/-! PROOFS. The key latch (60_exceptions.md): `set_inputs`. It is one write of the latch, so its effect and its frame are
those of `setKeys`; the key wait and the reports stand in that frame (R188). -/

namespace Sys2Proof.Machine

theorem setKeys_frame (s : State) (k : Keys) : Frame [.keys] s (s.setKeys k) := by
  intro p hp
  cases p
  case keys => exact absurd (List.mem_singleton_self _) hp
  all_goals simp [Part.Kept]

theorem hostOp_setInputs (s : State) (k : Keys) : s.hostOp (.setInputs k) = s.setKeys k := rfl

/-- Settles O48: `set_inputs` is the write of the latch. -/
theorem setInputsReplacesTheLatchOnly : Obligations.SetInputsReplacesTheLatchOnly := by
  intro s k
  rw [hostOp_setInputs]
  exact ⟨State.setKeys_keys s k, setKeys_frame s k⟩

end Sys2Proof.Machine
end

section
/-! PROOFS. `load` on an image of odd length (70_reset_and_hazards.md rule R202). Its first check is the parity of the
length, so `InvalidProgram` names that check alone; a failed `load` leaves a Session with no Machine State, which a
step call does not change. -/

namespace Sys2Proof.Machine

theorem imageEven_eq_false_iff {image : List Byte} : imageEven image = false ↔ image.length % 2 = 1 := by
  rw [imageEven, beq_eq_false_iff_ne, Nat.mod_two_ne_zero]

theorem load_of_odd {image : List Byte} (p : Params) (font : Vector Byte Config.fontSize) (now : Time)
    (h : imageEven image = false) : load p font now image = .error .invalidProgram := if_pos h

theorem load_of_even {image : List Byte} (p : Params) (font : Vector Byte Config.fontSize) (now : Time)
    (h : imageEven image ≠ false) :
    load p font now image =
      if imageFits image = false then .error .programTooLarge else .ok (loadedState p font now image) := if_neg h

/-- An even image that is refused is refused for its size (R203), so `InvalidProgram` means odd. -/
theorem load_eq_invalidProgram_iff {p : Params} {font : Vector Byte Config.fontSize} {now : Time} {image : List Byte} :
    load p font now image = .error .invalidProgram ↔ imageEven image = false := by
  refine ⟨fun hload => ?_, load_of_odd p font now⟩
  by_contra heven
  rw [load_of_even p font now heven] at hload
  split at hload
  case isTrue => cases hload
  case isFalse => cases hload

/-- A failed `load` leaves no Machine State, whatever there was before (R202, R204). -/
theorem call_load_of_error {m : Session} {p : Params} {font : Vector Byte Config.fontSize} {image : List Byte}
    {e : LoadError} (h : load p font m.now image = .error e) :
    m.call (.load p font image) = .empty m.now (some e) := by
  rw [Session.call, Session.load, h]

@[simp] theorem call_step_empty (clock : Time) (why : Option LoadError) :
    (Session.empty clock why).call .step = .empty clock why := rfl

/-- Settles O50: `load` answers `InvalidProgram` exactly when its parity check fails, and the Session it then leaves is
one that a step call keeps. -/
theorem loadRefusesOddImages : Obligations.LoadRefusesOddImages := by
  intro p font now image m
  refine ⟨load_eq_invalidProgram_iff.trans imageEven_eq_false_iff, fun hodd => ?_⟩
  have hcall : m.call (.load p font image) = .empty m.now (some .invalidProgram) :=
    call_load_of_error (load_of_odd p font m.now (imageEven_eq_false_iff.2 hodd))
  exact ⟨hcall, by rw [hcall, call_step_empty]⟩

end Sys2Proof.Machine
end

section
/-! PROOFS. The decoder and the encoder are inverse to each other, the encodings in arithmetic, and the words that
decode to nothing (30_encoding.md rules R61, R65, R67). -/

namespace Sys2Proof

open Sys2Proof.Machine

/-! ### The fields as arithmetic on the word -/

theorem opField_toNat (w : Word) : (opField w).toNat = w.toNat / 0x1000 := by
  rw [opField, BitVec.extractLsb'_toNat, Nat.shiftRight_eq_div_pow]
  omega

theorem nField_toNat (w : Word) : (nField w).toNat = w.toNat % 16 := by
  rw [nField, BitVec.extractLsb'_toNat, Nat.shiftRight_zero]

theorem nnField_toNat (w : Word) : (nnField w).toNat = w.toNat % 256 := by
  rw [nnField, BitVec.extractLsb'_toNat, Nat.shiftRight_zero]

/-! ### What the decoders of the families answer -/

theorem encode_of_decode0 {w : Word} {i : Instr} (h : decode0 w = some i) : encode i = w := by
  unfold decode0 at h
  split at h
  · cases h; exact Eq.symm ‹_›
  · split at h
    · cases h; exact Eq.symm ‹_›
    · cases h

theorem encode_of_decode8 {x y : Reg} {n : Nibble} {i : Instr} (h : decode8 x y n = some i) :
    encode i = encXYN 0x8 x y n := by
  unfold decode8 at h
  split at h <;> cases h <;> exact congrArg (encXYN 0x8 x y) (BitVec.eq_of_toNat_eq (Eq.symm ‹_›))

theorem encode_of_decodeE {x : Reg} {nn : Byte} {i : Instr} (h : decodeE x nn = some i) :
    encode i = encXNN 0xE x nn := by
  unfold decodeE at h
  split at h <;> cases h <;> exact congrArg (encXNN 0xE x) (BitVec.eq_of_toNat_eq (Eq.symm ‹_›))

theorem encode_of_decodeF {x : Reg} {nn : Byte} {i : Instr} (h : decodeF x nn = some i) :
    encode i = encXNN 0xF x nn := by
  unfold decodeF at h
  split at h <;> cases h <;> exact congrArg (encXNN 0xF x) (BitVec.eq_of_toNat_eq (Eq.symm ‹_›))

theorem decode0_eq_none {w : Word} : decode0 w = none ↔ w.toNat ≠ 0x00E0 ∧ w.toNat ≠ 0x00EE := by
  unfold decode0
  split
  · simp_all
  · split <;> simp_all [BitVec.toNat_eq]

theorem decode8_eq_none {x y : Reg} {n : Nibble} :
    decode8 x y n = none ↔ n.toNat ∈ [0x8, 0x9, 0xA, 0xB, 0xC, 0xD, 0xF] := by
  have hn : n.toNat < 16 := n.isLt
  unfold decode8
  split
  case h_10 =>
    simp only [imp_false] at *
    simp
    omega
  all_goals simp_all

theorem decodeE_eq_none {x : Reg} {nn : Byte} : decodeE x nn = none ↔ nn.toNat ∉ [0x9E, 0xA1] := by
  unfold decodeE
  split <;> simp_all

theorem decodeF_eq_none {x : Reg} {nn : Byte} :
    decodeF x nn = none ↔ nn.toNat ∉ [0x07, 0x0A, 0x15, 0x18, 0x1E, 0x29, 0x33, 0x55, 0x65] := by
  unfold decodeF
  split <;> simp_all

/-! ### A word of one family is the encoding of its fields in that family's format -/

section Formats
variable {w : Word} {op : Nibble} (hop : (opField w).toNat = op.toNat)
include hop

theorem encAddr_of_opField : encAddr op (addrField w) = w := by
  rw [← BitVec.eq_of_toNat_eq hop, encAddr_fields]

theorem encXNN_of_opField : encXNN op (xField w) (nnField w) = w := by
  rw [← BitVec.eq_of_toNat_eq hop, encXNN_fields]

theorem encXYN_of_opField : encXYN op (xField w) (yField w) (nField w) = w := by
  rw [← BitVec.eq_of_toNat_eq hop, encXYN_fields]

end Formats

/-- Encoding what a word decodes to gives the word back (R65): no decoder of a family drops a field. -/
theorem encode_of_decode {w : Word} {i : Instr} (h : decode w = some i) : encode i = w := by
  unfold decode at h
  split at h
  case h_1 => exact encode_of_decode0 h
  case h_6 hop | h_10 hop =>
    split at h
    case isTrue hn =>
      cases h
      rw [encode, show (0x0 : Nibble) = nField w from hn.symm, encXYN_of_opField hop]
    case isFalse => cases h
  case h_9 hop => rw [encode_of_decode8 h, encXYN_of_opField hop]
  case h_14 hop => cases h; exact encXYN_of_opField hop
  case h_15 hop => rw [encode_of_decodeE h, encXNN_of_opField hop]
  case h_16 =>
    have hlt : (opField w).toNat < 16 := (opField w).isLt
    have hop : (opField w).toNat = 15 := by
      simp only [imp_false] at *
      omega
    rw [encode_of_decodeF h, encXNN_of_opField hop]
  case h_2 hop | h_3 hop | h_11 hop | h_12 hop => cases h; exact encAddr_of_opField hop
  all_goals cases h; exact encXNN_of_opField ‹_›

theorem decode_eq_some_iff {w : Word} {i : Instr} : decode w = some i ↔ encode i = w :=
  ⟨encode_of_decode, fun h => h ▸ decode_encode i⟩

/-! ### The encodings of single instructions that earlier sections do not name -/

/-- Family E is named by its low byte, as family F is. -/
theorem encXNN_familyE_toNat (x : Reg) (nn : Byte) : (encXNN 0xE x nn).toNat = 0xE000 + nn.toNat + 0x100 * x.val := by
  rw [encXNN_toNat, show (0xE : Nibble).toNat = 14 from rfl]
  omega

/-! ### The statements -/

/-- Settles O1: the decoder reads back every field that the encoder wrote. -/
theorem decodeOfEncodeGivesTheInstruction : Obligations.DecodeOfEncodeGivesTheInstruction := decode_encode

/-- Settles O2: family by family, a word is the encoding of its own fields. -/
theorem encodeOfDecodeGivesTheWord : Obligations.EncodeOfDecodeGivesTheWord := fun _ _ => encode_of_decode

/-- Settles O3: the word of every format as a number, format by format. -/
theorem encodingsAreThoseOfTheOpcodeMap : Obligations.EncodingsAreThoseOfTheOpcodeMap := by
  refine ⟨rfl, rfl, fun a => ?addr, fun x nn => ?xnn, fun x y => ?xy, fun x y n => encXYN_toNat 0xD x y n,
    fun x => ?x⟩
  case addr => exact ⟨encAddr_toNat 0x1 a, encAddr_toNat 0x2 a, encAddr_toNat 0xA a, encAddr_toNat 0xB a⟩
  case xnn =>
    exact ⟨encXNN_toNat 0x3 x nn, encXNN_toNat 0x4 x nn, encXNN_toNat 0x6 x nn, encXNN_toNat 0x7 x nn,
      encXNN_toNat 0xC x nn⟩
  case xy =>
    have family8 := encXYN_family8_toNat x y
    exact ⟨encXYN_toNat 0x5 x y 0x0, family8 0x0, family8 0x1, family8 0x2, family8 0x3, family8 0x4, family8 0x5,
      family8 0x6, family8 0x7, family8 0xE, encXYN_toNat 0x9 x y 0x0⟩
  case x =>
    have familyE := encXNN_familyE_toNat x
    have familyF := encXNN_familyF_toNat x
    exact ⟨familyE 0x9E, familyE 0xA1, familyF 0x07, familyF 0x0A, familyF 0x15, familyF 0x18, familyF 0x1E,
      familyF 0x29, familyF 0x33, familyF 0x55, familyF 0x65⟩

/-- Settles O4: family by family, the words that its decoder answers nothing on. -/
theorem unsupportedWordsAreTheListedOnes : Obligations.UnsupportedWordsAreTheListedOnes := by
  intro w
  have hlow : nField w = 0#4 ↔ w.toNat % 16 = 0 := by
    rw [← nField_toNat]
    exact BitVec.toNat_inj.symm
  rw [← opField_toNat]
  unfold decode
  split
  case h_1 hop => simp [hop, decode0_eq_none]
  case h_6 hop | h_10 hop => simp [hop, hlow]
  case h_9 hop => simp [hop, decode8_eq_none, nField_toNat]
  case h_15 hop => simp [hop, decodeE_eq_none, nnField_toNat]
  case h_16 =>
    have hop : (opField w).toNat = 15 := by
      have hlt : (opField w).toNat < 16 := (opField w).isLt
      simp only [imp_false] at *
      omega
    simp [hop, decodeF_eq_none, nnField_toNat]
  all_goals simp [*]

/-- Settles O5: the decoder run on each of the sample words. -/
theorem sampleWordsDecodeAsTabled : Obligations.SampleWordsDecodeAsTabled :=
  ⟨rfl, rfl, rfl, rfl, rfl, rfl, rfl, rfl, rfl⟩

end Sys2Proof
end

section
/-! PROOFS. The flag-writing forms (41_alu.md): `8xy4 8xy5 8xy6 8xy7 8xyE`, and the random byte `cxnn`. Each
flag-writing form is one use of `setResultAndFlag`, so its effect is that operation's. -/

namespace Sys2Proof.Machine

/-! ### Results and flags as numbers -/

theorem flagByte_decide_toNat (c : Prop) [Decidable c] : (flagByte (decide c)).toNat = if c then 1 else 0 := by
  by_cases h : c
  · rw [decide_eq_true h, if_pos h]
    rfl
  · rw [decide_eq_false h, if_neg h]
    rfl

theorem carryFlag_toNat (a b : Byte) : (carryFlag a b).toNat = if 255 < a.toNat + b.toNat then 1 else 0 :=
  flagByte_decide_toNat _

theorem noBorrowFlag_toNat (a b : Byte) : (noBorrowFlag a b).toNat = if b.toNat ≤ a.toNat then 1 else 0 :=
  flagByte_decide_toNat _

theorem shiftRightFlag_toNat (a : Byte) : (shiftRightFlag a).toNat = a.toNat % 2 := by
  rw [shiftRightFlag, BitVec.getLsbD, Nat.testBit_zero, flagByte_decide_toNat]
  split <;> omega

theorem shiftLeftFlag_toNat (a : Byte) : (shiftLeftFlag a).toNat = a.toNat / 128 := by
  have ha : a.toNat < 256 := a.isLt
  rw [shiftLeftFlag, BitVec.getLsbD, Nat.testBit_eq_decide_div_mod_eq, flagByte_decide_toNat]
  split <;> omega

theorem subBytes_toNat (a b : Byte) : (subBytes a b).toNat = (a.toNat + 256 - b.toNat) % 256 := by
  unfold subBytes
  split
  · rw [BitVec.toNat_ofNat]
    omega
  · exact BitVec.toNat_ofNat _ _

theorem shiftRight_toNat (a : Byte) : (shiftRight a).toNat = a.toNat / 2 := by
  rw [shiftRight, BitVec.toNat_ofNat]
  omega

theorem shiftLeft_toNat (a : Byte) : (shiftLeft a).toNat = 2 * a.toNat % 256 := BitVec.toNat_ofNat _ _

/-! ### The instructions -/

/-- What every flag-writing form does (R111), its result and its flag given as numbers. -/
theorem resultAndFlag_effect {i : Instr} {s : State} {x : Reg} {result flag : Byte} {r f : Nat}
    (h : exec i s = .next (s.setResultAndFlag x result flag)) (hr : result.toNat = r) (hf : flag.toNat = f) :
    ∃ t, exec i s = .next t ∧ ResultAndFlag s t x r f := by
  subst hr hf
  refine ⟨_, h, ?flag, ?result, ?kept, setResultAndFlag_frame s x result flag⟩
  case flag =>
    intro hlast
    rw [setResultAndFlag_reg]
    cases ho : s.params.vfOrder <;> simp_all [eq_comm]
  case result =>
    intro hlast
    rw [setResultAndFlag_reg]
    cases ho : s.params.vfOrder <;> simp_all
  case kept =>
    intro j hj
    rw [setResultAndFlag_reg]
    cases s.params.vfOrder <;> simp_all

theorem exec_addReg (s : State) (x y : Reg) :
    exec (.addReg x y) s =
      .next (s.setResultAndFlag x (addBytes (s.reg x) (s.reg y)) (carryFlag (s.reg x) (s.reg y))) := rfl

theorem exec_sub (s : State) (x y : Reg) :
    exec (.sub x y) s =
      .next (s.setResultAndFlag x (subBytes (s.reg x) (s.reg y)) (noBorrowFlag (s.reg x) (s.reg y))) := rfl

theorem exec_subn (s : State) (x y : Reg) :
    exec (.subn x y) s =
      .next (s.setResultAndFlag x (subBytes (s.reg y) (s.reg x)) (noBorrowFlag (s.reg y) (s.reg x))) := rfl

theorem exec_shr (s : State) (x y : Reg) :
    exec (.shr x y) s =
      .next (s.setResultAndFlag x (shiftRight (s.shiftOperand x y)) (shiftRightFlag (s.shiftOperand x y))) := rfl

theorem exec_shl (s : State) (x y : Reg) :
    exec (.shl x y) s =
      .next (s.setResultAndFlag x (shiftLeft (s.shiftOperand x y)) (shiftLeftFlag (s.shiftOperand x y))) := rfl

theorem exec_rnd (s : State) (x : Reg) (nn : Byte) :
    exec (.rnd x nn) s = .next ((s.setReg x (s.randByte &&& nn)).noteDraw) := rfl

theorem shiftOperand_toNat (s : State) (x y : Reg) :
    (s.shiftOperand x y).toNat = if s.params.shiftSrc = .x then (s.reg x).toNat else (s.reg y).toNat := by
  unfold State.shiftOperand
  split <;> simp [*]

theorem randByte_eq {s : State} {r : Byte}
    (h : s.params.rand = .draw ∧ r = Config.randByte s.draws ∨ s.params.rand = .const r) : s.randByte = r := by
  unfold State.randByte
  rcases h with ⟨hdraw, rfl⟩ | hconst
  · rw [hdraw]
  · rw [hconst]

theorem noteDraw_frame (s : State) : Frame [.draws] s s.noteDraw := by
  intro p hp
  cases p
  case draws => exact absurd (List.mem_singleton_self _) hp
  all_goals simp [Part.Kept]

/-! ### The statements -/

/-- Settles O23: the wrapped sum and the carry. -/
theorem addSetsTheCarryFlag : Obligations.AddSetsTheCarryFlag := fun s x y =>
  resultAndFlag_effect (exec_addReg s x y) (addBytes_toNat _ _) (carryFlag_toNat _ _)

/-- Settles O24: the wrapped difference and the absence of a borrow, in both orders of the operands. -/
theorem subtractionsSetTheNoBorrowFlag : Obligations.SubtractionsSetTheNoBorrowFlag := fun s x y =>
  ⟨resultAndFlag_effect (exec_sub s x y) (subBytes_toNat _ _) (noBorrowFlag_toNat _ _),
    resultAndFlag_effect (exec_subn s x y) (subBytes_toNat _ _) (noBorrowFlag_toNat _ _)⟩

/-- Settles O25: the operand that `SHIFT_SRC` names, halved or doubled, and the bit that falls out. -/
theorem shiftsByOneSetTheBitShiftedOut : Obligations.ShiftsByOneSetTheBitShiftedOut := by
  intro s x y v hv
  rw [← shiftOperand_toNat] at hv
  subst hv
  exact ⟨resultAndFlag_effect (exec_shr s x y) (shiftRight_toNat _) (shiftRightFlag_toNat _),
    resultAndFlag_effect (exec_shl s x y) (shiftLeft_toNat _) (shiftLeftFlag_toNat _)⟩

/-- Settles O26: one register write of the masked byte, then one draw noted. -/
theorem randomByteIsDrawnOnceAndMasked : Obligations.RandomByteIsDrawnOnceAndMasked := by
  intro s x nn r hr
  refine ⟨_, exec_rnd s x nn, fun b => ?bits, rfl, setReg_regsKeptExcept s x _,
    (setReg_frame s x _).trans (noteDraw_frame _)⟩
  rw [State.noteDraw_reg, setReg_reg_same, randByte_eq hr, BitVec.getLsbD_and]

end Sys2Proof.Machine
end

section
/-! PROOFS. The offset jump, the addition to `I`, the memory transfer, the key skips and the key wait (40_flow.md,
42_index_mem.md, 44_keys_timers.md): `bnnn fx1e fx33 fx55 fx65 ex9e exa1 fx0a`. One equation per instruction says when
it raises its hard fault and what it does otherwise. -/

namespace Sys2Proof.Machine

/-! ### The instructions -/

theorem exec_jpV0 (s : State) (a : Addr) : exec (.jpV0 a) s = .next (s.setPc (offsetTarget (s.reg 0) a)) := rfl

theorem exec_addI (s : State) (x : Reg) :
    exec (.addI x) s =
      if 0xFFF < s.i.toNat + (s.reg x).toNat then .fault (.oobIndex (s.i.toNat + (s.reg x).toNat))
      else .next (s.setI (BitVec.ofNat 12 (s.i.toNat + (s.reg x).toNat))) := rfl

theorem exec_skp (s : State) (x : Reg) :
    exec (.skp x) s =
      if 15 < (s.reg x).toNat then .fault (.oobKey (s.reg x).toNat)
      else .next (s.skipIf (s.keys.pressed (s.reg x).toNat)) := rfl

theorem exec_sknp (s : State) (x : Reg) :
    exec (.sknp x) s =
      if 15 < (s.reg x).toNat then .fault (.oobKey (s.reg x).toNat)
      else .next (s.skipIf (!s.keys.pressed (s.reg x).toNat)) := rfl

theorem exec_waitKey (s : State) (x : Reg) : exec (.waitKey x) s = .next (s.enterWait x) := rfl

/-- A write of at least one byte at `I`, and its fault (R48). -/
theorem ofAccess_memWrite (s : State) (us : List Byte) {k : Nat} (hk : us.length = k + 1) :
    ofAccess (s.memWrite s.i.toNat us) =
      if 0xFFF < s.i.toNat + k then .fault (.oobMemory (s.i.toNat + k))
      else .next (s.setMem (s.mem.writeBytes s.i.toNat us)) := by
  rw [memWrite_eq, hk, Config.memSize]
  by_cases h : 0xFFF < s.i.toNat + k
  · rw [if_neg (by omega), if_pos h]
    rfl
  · rw [if_pos (by omega), if_neg h]
    rfl

theorem exec_bcd (s : State) (x : Reg) :
    exec (.bcd x) s =
      if 0xFFF < s.i.toNat + 2 then .fault (.oobMemory (s.i.toNat + 2))
      else .next (s.setMem (s.mem.writeBytes s.i.toNat (bcdDigits (s.reg x)))) :=
  ofAccess_memWrite s _ rfl

theorem exec_storeRegs (s : State) (x : Reg) :
    exec (.storeRegs x) s =
      if 0xFFF < s.i.toNat + x.val then .fault (.oobMemory (s.i.toNat + x.val))
      else .next (s.setMem (s.mem.writeBytes s.i.toNat (s.regsUpTo x))) :=
  ofAccess_memWrite s _ (regsUpTo_length s x)

theorem exec_loadRegs (s : State) (x : Reg) :
    exec (.loadRegs x) s =
      if 0xFFF < s.i.toNat + x.val then .fault (.oobMemory (s.i.toNat + x.val))
      else .next (s.setRegsFrom 0 (s.mem.readBytes s.i.toNat (x.val + 1))) := by
  rw [show exec (.loadRegs x) s = ofAccess ((s.memRead s.i.toNat (x.val + 1)).map (s.setRegsFrom 0)) from rfl,
    memRead_eq, Config.memSize]
  by_cases h : 0xFFF < s.i.toNat + x.val
  · rw [if_neg (by omega), if_pos h]
    rfl
  · rw [if_pos (by omega), if_neg h]
    rfl

/-! ### What the stored and the loaded bytes are -/

theorem offsetTarget_toNat (v : Byte) (a : Addr) : (offsetTarget v a).toNat = v.toNat + a.toNat := by
  rw [offsetTarget, BitVec.toNat_ofNat]
  omega

/-- `fx55` puts register `k` at `I + k` (R124). -/
theorem read_storeRegs {s : State} {x k : Reg} (hw : s.mem.wf = true) (hb : s.i.toNat + x.val ≤ 0xFFF) (hk : k ≤ x) :
    (s.mem.writeBytes s.i.toNat (s.regsUpTo x)).read (s.i.toNat + k.val) = s.reg k := by
  have hlt : k.val < (s.regsUpTo x).length := by
    rw [regsUpTo_length]
    exact Nat.lt_succ_of_le hk
  rw [Memory.read_writeBytes_inside _ _ _ hw hlt (by rw [regsUpTo_length, Config.memSize]; omega), regsUpTo_getElem]

/-- `fx65` takes register `k` from `I + k` and keeps the registers beyond `x` (R125). -/
theorem setRegsFrom_readBytes_reg (s : State) (x k : Reg) (a : Nat) :
    (s.setRegsFrom 0 (s.mem.readBytes a (x.val + 1))).reg k = if k ≤ x then s.mem.read (a + k.val) else s.reg k := by
  rw [setRegsFrom_reg, if_pos (Nat.zero_le _), Nat.sub_zero]
  by_cases hk : k ≤ x
  · have hlt : k.val < x.val + 1 := Nat.lt_succ_of_le hk
    rw [if_pos hk, List.getElem?_eq_getElem (by rwa [Memory.length_readBytes]), Memory.getElem_readBytes,
      Option.getD_some]
  · have hle : x.val + 1 ≤ k.val := Nat.lt_of_not_le hk
    rw [if_neg hk, List.getElem?_eq_none (by rwa [Memory.length_readBytes]), Option.getD_none]

theorem enterWait_frame (s : State) (x : Reg) : Frame [.keyWait] s (s.enterWait x) := by
  intro p hp
  cases p
  case keyWait => exact absurd (List.mem_singleton_self _) hp
  all_goals simp [Part.Kept]

/-! ### The statements -/

/-- Settles O28: one write of `PC`; 255 + 4095 is 0x10FE. -/
theorem offsetJumpAddsWithoutWrapping : Obligations.OffsetJumpAddsWithoutWrapping := by
  intro s a
  refine ⟨_, exec_jpV0 s a, offsetTarget_toNat _ _, ?bound, setPc_frame s _⟩
  rw [State.setPc_pc, offsetTarget_toNat]
  omega

/-- Settles O34: on a sum of at most 12 bits one write of `I`, otherwise the fault. -/
theorem addToIndexFaultsAboveTwelveBits : Obligations.AddToIndexFaultsAboveTwelveBits := by
  intro s x
  rw [exec_addI]
  refine ⟨fun hle => ?sum, fun hgt => if_pos hgt⟩
  rw [if_neg (by omega)]
  refine ⟨_, rfl, ?_, setI_frame s _⟩
  rw [State.setI_i, BitVec.toNat_ofNat]
  omega

/-- Settles O35: the three digits are written from `I` on, or the write faults. -/
theorem decimalDigitsAreStoredAtIndex : Obligations.DecimalDigitsAreStoredAtIndex := by
  intro s x
  rw [exec_bcd]
  refine ⟨fun hle => ?stored, fun hgt => if_pos hgt⟩
  rw [if_neg (by omega)]
  refine ⟨_, rfl, fun hw => ?digits, fun a ha => ?outside, setMem_frame s _⟩
  case digits =>
    have hx : (s.reg x).toNat < 256 := (s.reg x).isLt
    have digit := fun k hk => Memory.read_writeBytes_inside s.i.toNat k (bcdDigits (s.reg x)) hw hk
      (show s.i.toNat + 3 ≤ 4096 by omega)
    have h0 := digit 0 (by simp [bcdDigits])
    have h1 := digit 1 (by simp [bcdDigits])
    have h2 := digit 2 (by simp [bcdDigits])
    rw [Nat.add_zero] at h0
    rw [State.setMem_mem, h0, h1, h2]
    simp only [bcdDigits, List.getElem_cons_zero, List.getElem_cons_succ, BitVec.toNat_ofNat]
    omega
  case outside =>
    refine Memory.read_writeBytes_outside _ _ _ _ ?_
    rw [show (bcdDigits (s.reg x)).length = 3 from rfl]
    omega

/-- Settles O36: the registers are written from `I` on, or the write faults. -/
theorem registersAreStoredAtIndex : Obligations.RegistersAreStoredAtIndex := by
  intro s x
  rw [exec_storeRegs]
  refine ⟨fun hle => ?stored, fun hgt => if_pos hgt⟩
  rw [if_neg (by omega)]
  refine ⟨_, rfl, fun hw k hk => read_storeRegs hw hle hk, fun a ha => ?outside, setMem_frame s _⟩
  refine Memory.read_writeBytes_outside _ _ _ _ ?_
  rw [regsUpTo_length]
  omega

/-- Settles O37: the registers are read from `I` on, or the read faults. -/
theorem registersAreLoadedFromIndex : Obligations.RegistersAreLoadedFromIndex := by
  intro s x
  rw [exec_loadRegs]
  refine ⟨fun hle => ?loaded, fun hgt => if_pos hgt⟩
  rw [if_neg (by omega)]
  refine ⟨_, rfl, fun k hk => ?_, fun k hk => ?_, setRegsFrom_frame s _ _⟩
  · rw [setRegsFrom_readBytes_reg, if_pos hk]
  · rw [setRegsFrom_readBytes_reg, if_neg (not_le.2 hk)]

/-- Settles O45: up to 15 each of the two is a skip on the latch, above 15 the fault. -/
theorem keySkipsReadTheLatch : Obligations.KeySkipsReadTheLatch := by
  intro s x
  rw [exec_skp, exec_sknp]
  refine ⟨fun hle => ?_, fun hgt => ⟨if_pos hgt, if_pos hgt⟩⟩
  rw [if_neg (not_lt.2 hle), if_neg (not_lt.2 hle)]
  refine ⟨⟨_, rfl, skipIf_pc s _, skipIf_frame s _⟩, _, rfl, ?notPressed, skipIf_frame s _⟩
  rw [skipIf_pc]
  cases s.keys.pressed (s.reg x).toNat <;> rfl

/-- Settles O46: one write of the key wait. -/
theorem waitKeyOnlyEntersTheWait : Obligations.WaitKeyOnlyEntersTheWait := fun s x =>
  ⟨_, exec_waitKey s x, rfl, rfl, enterWait_frame s x⟩

end Sys2Proof.Machine
end

section
/-! PROOFS. `dxyn` on a state (43_display.md rules R141 to R144): the positions of the sprite's set bits, and its two
faults. -/

namespace Sys2Proof.Machine

/-- The display positions (column, row) of the set bits of the sprite that `dxyn` draws (R142). -/
def State.spritePositions (s : State) (x y : Reg) (n : Nibble) : List (Nat × Nat) :=
  spritePixels s.params.spriteMsbLeft (s.reg x).toNat (s.reg y).toNat (s.mem.readBytes s.i.toNat n.toNat)

theorem mem_spritePositions {s : State} {x y : Reg} {n : Nibble} {p : Nat × Nat} :
    p ∈ s.spritePositions x y n ↔ ∃ c r, SpriteBit s n c r ∧ p = ((s.reg x).toNat + c, (s.reg y).toNat + r) := by
  rw [State.spritePositions, mem_spritePixels]
  simp only [Memory.length_readBytes, Memory.getElem_readBytes]
  constructor
  · rintro ⟨r, c, hr, hc, hbit, rfl⟩
    exact ⟨c, r, ⟨hr, hc, hbit⟩, rfl⟩
  · rintro ⟨c, r, ⟨hr, hc, hbit⟩, rfl⟩
    exact ⟨r, c, hr, hc, hbit, rfl⟩

theorem nodup_spritePositions (s : State) (x y : Reg) (n : Nibble) : (s.spritePositions x y n).Nodup :=
  nodup_spritePixels _ _ _ _

theorem exec_drw (s : State) (x y : Reg) (n : Nibble) :
    exec (.drw x y n) s =
      if n.toNat = 0 ∨ s.i.toNat + n.toNat ≤ 0x1000 then s.drawPixels (s.spritePositions x y n)
      else .fault (.oobMemory (s.i.toNat + n.toNat - 1)) := by
  rw [exec, execDrw, memRead_eq]
  by_cases h : n.toNat = 0 ∨ s.i.toNat + n.toNat ≤ 0x1000
  · rw [if_pos h, if_pos h]
    rfl
  · rw [if_neg h, if_neg h]
    rfl

/-- Every position is on the screen (R144). -/
def OnScreen (ps : List (Nat × Nat)) : Prop := ∀ p ∈ ps, p.1 < Config.dispW ∧ p.2 < Config.dispH

/-- The state after pixels on the screen have been drawn (R141, R143). -/
def State.afterDraw (s : State) (ps : List (Nat × Nat)) : State :=
  (s.setReg 15 (flagByte (composite s.disp false ps).2)).drawn (composite s.disp false ps).1

theorem drawPixels_of_onScreen {s : State} {ps : List (Nat × Nat)} (h : OnScreen ps) :
    s.drawPixels ps = .next (s.afterDraw ps) := by
  rw [drawPixels_eq]
  exact if_pos h

/-- Off the screen a drawing faults, with one of its positions that are not on the screen (R144). -/
theorem drawPixels_of_not_onScreen {s : State} {ps : List (Nat × Nat)} (h : ¬OnScreen ps) :
    ∃ p ∈ ps, (63 < p.1 ∨ 31 < p.2) ∧ s.drawPixels ps = .fault (.oobDisplay p.1 p.2) := by
  have hne : ps.filter pixelOob ≠ [] := fun hnil => h fun p hp => by
    have := List.filter_eq_nil_iff.1 hnil p hp
    simpa [pixelOob, not_or] using this
  obtain ⟨hmem, hoob⟩ := List.mem_filter.1 (recordedPixel_mem s hne)
  refine ⟨_, hmem, ?off, ?fault⟩
  case off =>
    rw [pixelOob, Bool.or_eq_true, decide_eq_true_eq, decide_eq_true_eq] at hoob
    exact hoob
  case fault =>
    rw [drawPixels_eq]
    exact if_neg h

/-- When `dxyn` answers a next state, its sprite is on the screen and that state is the one after the drawing. -/
theorem exec_drw_next {s t : State} {x y : Reg} {n : Nibble} (h : exec (.drw x y n) s = .next t) :
    OnScreen (s.spritePositions x y n) ∧ t = s.afterDraw (s.spritePositions x y n) := by
  rw [exec_drw] at h
  split at h
  case isFalse => cases h
  case isTrue =>
    by_cases hon : OnScreen (s.spritePositions x y n)
    · rw [drawPixels_of_onScreen hon] at h
      cases h
      exact ⟨hon, rfl⟩
    · obtain ⟨p, -, -, hfault⟩ := drawPixels_of_not_onScreen (s := s) hon
      rw [hfault] at h
      cases h

end Sys2Proof.Machine
end

section
/-! PROOFS. Which faults an instruction raises (60_exceptions.md rule R170). -/

namespace Sys2Proof.Machine

/-- The hard faults that an instruction can raise in a state, each with its condition and its recorded value (R170). -/
inductive Raises (s : State) : Instr → Fault → Prop
  | bcd {x} : 0xFFF < s.i.toNat + 2 → Raises s (.bcd x) (.oobMemory (s.i.toNat + 2))
  | storeRegs {x} : 0xFFF < s.i.toNat + x.val → Raises s (.storeRegs x) (.oobMemory (s.i.toNat + x.val))
  | loadRegs {x} : 0xFFF < s.i.toNat + x.val → Raises s (.loadRegs x) (.oobMemory (s.i.toNat + x.val))
  | drwMemory {x y n} : 0 < n.toNat → 0xFFF < s.i.toNat + n.toNat - 1 →
      Raises s (.drw x y n) (.oobMemory (s.i.toNat + n.toNat - 1))
  | drwDisplay {x y n c r} : SpriteBit s n c r → 63 < (s.reg x).toNat + c ∨ 31 < (s.reg y).toNat + r →
      Raises s (.drw x y n) (.oobDisplay ((s.reg x).toNat + c) ((s.reg y).toNat + r))
  | addI {x} : 0xFFF < s.i.toNat + (s.reg x).toNat → Raises s (.addI x) (.oobIndex (s.i.toNat + (s.reg x).toNat))
  | skp {x} : 15 < (s.reg x).toNat → Raises s (.skp x) (.oobKey (s.reg x).toNat)
  | sknp {x} : 15 < (s.reg x).toNat → Raises s (.sknp x) (.oobKey (s.reg x).toNat)

/-- An instruction answers a next state or raises one of its faults. -/
def Completes (i : Instr) (s : State) : Prop :=
  (∃ t, exec i s = .next t) ∨ ∃ f, exec i s = .fault f ∧ Raises s i f

theorem Completes.of_ite {i : Instr} {s t : State} {c : Prop} [Decidable c] {f : Fault}
    (h : exec i s = if c then .fault f else .next t) (hf : c → Raises s i f) : Completes i s := by
  by_cases hc : c
  · exact .inr ⟨f, h.trans (if_pos hc), hf hc⟩
  · exact .inl ⟨t, h.trans (if_neg hc)⟩

theorem completes_drw (s : State) (x y : Reg) (n : Nibble) : Completes (.drw x y n) s := by
  unfold Completes
  rw [exec_drw]
  split
  case isFalse h => exact .inr ⟨_, rfl, .drwMemory (by omega) (by omega)⟩
  case isTrue =>
    by_cases hon : OnScreen (s.spritePositions x y n)
    · exact .inl ⟨_, drawPixels_of_onScreen hon⟩
    · obtain ⟨p, hp, hoff, hfault⟩ := drawPixels_of_not_onScreen (s := s) hon
      obtain ⟨c, r, hbit, rfl⟩ := mem_spritePositions.1 hp
      exact .inr ⟨_, hfault, .drwDisplay hbit hoff⟩

theorem exec_completes (i : Instr) (s : State) : Completes i s := by
  cases i with
  | bcd x => exact .of_ite (exec_bcd s x) .bcd
  | storeRegs x => exact .of_ite (exec_storeRegs s x) .storeRegs
  | loadRegs x => exact .of_ite (exec_loadRegs s x) .loadRegs
  | addI x => exact .of_ite (exec_addI s x) .addI
  | skp x => exact .of_ite (exec_skp s x) .skp
  | sknp x => exact .of_ite (exec_sknp s x) .sknp
  | drw x y n => exact completes_drw s x y n
  | ret =>
    by_cases h : s.sp = 0
    · exact .inl ⟨_, exec_ret_of_empty h⟩
    · exact .inl ⟨_, exec_ret_of_nonempty h⟩
  | call a =>
    by_cases h : s.sp = s.params.stackCapacity
    · exact .inl ⟨_, exec_call_of_full a h⟩
    · exact .inl ⟨_, exec_call_of_room a h⟩
  | _ => exact .inl ⟨_, rfl⟩

theorem raises_of_exec_fault {i : Instr} {s : State} {f : Fault} (h : exec i s = .fault f) : Raises s i f := by
  obtain ⟨t, ht⟩ | ⟨g, hg, hraises⟩ := exec_completes i s
  · cases ht.symm.trans h
  · cases hg.symm.trans h
    exact hraises

theorem exec_ne_refused (i : Instr) (s : State) (r : Refusal) : exec i s ≠ .refused r := by
  intro h
  obtain ⟨t, ht⟩ | ⟨g, hg, -⟩ := exec_completes i s
  · cases ht.symm.trans h
  · cases hg.symm.trans h

/-- Settles O16: the faults of `Raises`, written out. -/
theorem hardFaultsAreTheListedOnes : Obligations.HardFaultsAreTheListedOnes := by
  intro i s
  refine ⟨exec_ne_refused i s, fun f hfault => ?_⟩
  cases raises_of_exec_fault hfault with
  | bcd hcond => exact .inl ⟨_, rfl, hcond, rfl⟩
  | storeRegs hcond => exact .inr (.inl ⟨_, .inl rfl, hcond, rfl⟩)
  | loadRegs hcond => exact .inr (.inl ⟨_, .inr rfl, hcond, rfl⟩)
  | drwMemory hn hcond => exact .inr (.inr (.inl ⟨_, _, _, rfl, hn, hcond, rfl⟩))
  | drwDisplay hbit hcond => exact .inr (.inr (.inr (.inl ⟨_, _, _, _, _, rfl, hbit, hcond, rfl⟩)))
  | addI hcond => exact .inr (.inr (.inr (.inr (.inl ⟨_, rfl, hcond, rfl⟩))))
  | skp hcond => exact .inr (.inr (.inr (.inr (.inr ⟨_, .inl rfl, hcond, rfl⟩))))
  | sknp hcond => exact .inr (.inr (.inr (.inr (.inr ⟨_, .inr rfl, hcond, rfl⟩))))

end Sys2Proof.Machine
end

section
/-! PROOFS. The table of R28, column "written by", as data, and that every instruction keeps to it. An element is one
field of the state, a general register by its number; unlike `Part`, `MEM` is compared as the list of cells it is. -/

namespace Sys2Proof.Machine

/-- The elements of the state, in the order of the fields of `State`. -/
inductive Element where
  | reg (j : Reg)
  | index | pc | stack | sp | dt | st | dtRef | mem | disp | keys | blocking | target
  | params | now | draws | schedule | reports | displayChanged
  deriving DecidableEq

/-- An element is the same in two states. -/
def Element.Same (s t : State) : Element → Prop
  | .reg j => t.reg j = s.reg j
  | .index => t.i = s.i
  | .pc => t.pc = s.pc
  | .stack => t.stack = s.stack
  | .sp => t.sp = s.sp
  | .dt => t.dt = s.dt
  | .st => t.st = s.st
  | .dtRef => t.dtRef = s.dtRef
  | .mem => t.mem = s.mem
  | .disp => t.disp = s.disp
  | .keys => t.keys = s.keys
  | .blocking => t.blocking = s.blocking
  | .target => t.target = s.target
  | .params => t.params = s.params
  | .now => t.now = s.now
  | .draws => t.draws = s.draws
  | .schedule => t.schedule = s.schedule
  | .reports => t.reports = s.reports
  | .displayChanged => t.displayChanged = s.displayChanged

/-- Every element but the listed ones is the same in two states. -/
def SameBut (es : List Element) (s t : State) : Prop := ∀ e, e ∉ es → e.Same s t

theorem Element.Same.refl (e : Element) (s : State) : e.Same s s := by
  cases e <;> rfl

theorem Element.Same.trans {e : Element} {s t u : State} (h : e.Same s t) (h' : e.Same t u) : e.Same s u := by
  cases e <;> exact Eq.trans h' h

namespace SameBut

theorem refl (es : List Element) (s : State) : SameBut es s s := fun e _ => .refl e s

theorem trans {es es' : List Element} {s t u : State} (h : SameBut es s t) (h' : SameBut es' t u) :
    SameBut (es ++ es') s u := fun e he =>
  (h e fun hm => he (List.mem_append_left _ hm)).trans (h' e fun hm => he (List.mem_append_right _ hm))

theorem mono {es es' : List Element} {s t : State} (h : SameBut es s t) (hsub : es ⊆ es') : SameBut es' s t :=
  fun e he => h e fun hm => he (hsub hm)

theorem mem_of_not_same {es : List Element} {s t : State} (h : SameBut es s t) {e : Element} (he : ¬e.Same s t) :
    e ∈ es := by
  by_contra hmem
  exact he (h e hmem)

/-- For an instruction that answers a next state in every case. -/
theorem of_next {es : List Element} {s t u : State} (h : (.next u : Result) = .next t) (hu : SameBut es s u) :
    SameBut es s t := by
  cases h
  exact hu

/-- For an instruction that raises a fault in one case. -/
theorem of_ite {es : List Element} {s t u : State} {c : Prop} [Decidable c] {f : Fault}
    (h : (if c then .fault f else .next u : Result) = .next t) (hu : SameBut es s u) : SameBut es s t := by
  split at h
  · cases h
  · exact of_next h hu

end SameBut

/-! ### The updates -/

theorem setReg_sameBut (s : State) (x : Reg) (b : Byte) : SameBut [.reg x] s (s.setReg x b) := by
  intro e he
  cases e <;> simp_all [Element.Same]

theorem setI_sameBut (s : State) (a : Addr) : SameBut [.index] s (s.setI a) := by
  intro e he
  cases e <;> simp_all [Element.Same]

theorem setPc_sameBut (s : State) (p : Word) : SameBut [.pc] s (s.setPc p) := by
  intro e he
  cases e <;> simp_all [Element.Same]

theorem push_sameBut (s : State) (p : Word) : SameBut [.stack, .sp] s (s.push p) := by
  intro e he
  cases e <;> simp_all [Element.Same]

theorem pop_sameBut (s : State) : SameBut [.sp] s s.pop := by
  intro e he
  cases e <;> simp_all [Element.Same]

theorem setDt_sameBut (s : State) (b : Byte) : SameBut [.dt] s (s.setDt b) := by
  intro e he
  cases e <;> simp_all [Element.Same]

theorem setSt_sameBut (s : State) (b : Byte) : SameBut [.st] s (s.setSt b) := by
  intro e he
  cases e <;> simp_all [Element.Same]

theorem setDtRef_sameBut (s : State) (t : Time) : SameBut [.dtRef] s (s.setDtRef t) := by
  intro e he
  cases e <;> simp_all [Element.Same]

theorem setMem_sameBut (s : State) (m : Memory) : SameBut [.mem] s (s.setMem m) := by
  intro e he
  cases e <;> simp_all [Element.Same]

theorem drawn_sameBut (s : State) (d : Display) : SameBut [.disp, .displayChanged] s (s.drawn d) := by
  intro e he
  cases e <;> simp_all [Element.Same]

theorem setKeys_sameBut (s : State) (k : Keys) : SameBut [.keys] s (s.setKeys k) := by
  intro e he
  cases e <;> simp_all [Element.Same]

theorem enterWait_sameBut (s : State) (x : Reg) : SameBut [.blocking, .target] s (s.enterWait x) := by
  intro e he
  cases e <;> simp_all [Element.Same]

theorem leaveWait_sameBut (s : State) : SameBut [.blocking] s s.leaveWait := by
  intro e he
  cases e <;> simp_all [Element.Same]

theorem noteDraw_sameBut (s : State) : SameBut [.draws] s s.noteDraw := by
  intro e he
  cases e <;> simp_all [Element.Same]

theorem setNow_sameBut (s : State) (t : Time) : SameBut [.now] s (s.setNow t) := by
  intro e he
  cases e <;> simp_all [Element.Same]

theorem setSchedule_sameBut (s : State) (l : List (List HostOp)) : SameBut [.schedule] s (s.setSchedule l) := by
  intro e he
  cases e <;> simp_all [Element.Same]

theorem setDisplayChanged_sameBut (s : State) (b : Bool) : SameBut [.displayChanged] s (s.setDisplayChanged b) := by
  intro e he
  cases e <;> simp_all [Element.Same]

theorem addReport_sameBut (s : State) (r : Report) : SameBut [.reports] s (s.addReport r) := by
  intro e he
  cases e <;> simp_all [Element.Same]

/-! ### The shared operations -/

theorem skipIf_sameBut (s : State) (c : Bool) : SameBut [.pc] s (s.skipIf c) := by
  cases c
  · exact .refl _ s
  · exact setPc_sameBut s _

theorem setResultAndFlag_sameBut (s : State) (x : Reg) (result flag : Byte) :
    SameBut [.reg x, .reg 15] s (s.setResultAndFlag x result flag) := by
  unfold State.setResultAndFlag
  split
  · exact (setReg_sameBut s x _).trans (setReg_sameBut _ 15 _)
  · exact ((setReg_sameBut s 15 _).trans (setReg_sameBut _ x _)).mono (by simp)

theorem afterDraw_sameBut (s : State) (ps : List (Nat × Nat)) :
    SameBut [.reg 15, .disp, .displayChanged] s (s.afterDraw ps) :=
  (setReg_sameBut s 15 _).trans (drawn_sameBut _ _)

/-- The registers up to a number. -/
def Element.regsUpTo (x : Reg) : List Element := ((List.finRange 16).filter (· ≤ x)).map .reg

@[simp] theorem Element.mem_regsUpTo {e : Element} {x : Reg} : e ∈ Element.regsUpTo x ↔ ∃ j ≤ x, .reg j = e := by
  simp [Element.regsUpTo]

/-- A block of register writes rewrites the register array only. -/
theorem setRegsFrom_eq (s : State) (k : Nat) (bs : List Byte) : ∃ v, s.setRegsFrom k bs = { s with v := v } := by
  induction bs generalizing s k with
  | nil => exact ⟨s.v, rfl⟩
  | cons b bs ih =>
    rw [State.setRegsFrom]
    split
    case isTrue h =>
      obtain ⟨v, hv⟩ := ih (s.setReg ⟨k, h⟩ b) (k + 1)
      exact ⟨v, hv⟩
    case isFalse => exact ih s (k + 1)

theorem setRegsFrom_readBytes_sameBut (s : State) (x : Reg) (a : Nat) :
    SameBut (Element.regsUpTo x) s (s.setRegsFrom 0 (s.mem.readBytes a (x.val + 1))) := by
  intro e he
  obtain ⟨v, hv⟩ := setRegsFrom_eq s 0 (s.mem.readBytes a (x.val + 1))
  cases e with
  | reg j =>
    have hj : ¬j ≤ x := fun hle => he (Element.mem_regsUpTo.2 ⟨j, hle, rfl⟩)
    rw [Element.Same, setRegsFrom_readBytes_reg, if_neg hj]
  | _ => rw [hv]; rfl

/-! ### The instructions -/

/-- What an instruction may write (R28, column "written by"). -/
def writtenBy : Instr → List Element
  | .cls => [.disp, .displayChanged]
  | .ret => [.pc, .sp, .reports]
  | .call _ => [.pc, .stack, .sp, .reports]
  | .jp _ | .jpV0 _ | .seImm _ _ | .sneImm _ _ | .seReg _ _ | .sneReg _ _ | .skp _ | .sknp _ => [.pc]
  | .ldImm x _ | .addImm x _ | .ldReg x _ | .orReg x _ | .andReg x _ | .xorReg x _ | .ldVxDt x => [.reg x]
  | .addReg x _ | .sub x _ | .shr x _ | .subn x _ | .shl x _ => [.reg x, .reg 15]
  | .rnd x _ => [.reg x, .draws]
  | .loadRegs x => Element.regsUpTo x
  | .drw _ _ _ => [.reg 15, .disp, .displayChanged]
  | .ldI _ | .addI _ | .ldFont _ => [.index]
  | .bcd _ | .storeRegs _ => [.mem]
  | .ldDtVx _ => [.dt, .dtRef]
  | .ldStVx _ => [.st]
  | .waitKey _ => [.blocking, .target]

theorem exec_ret_next {s t : State} (h : exec .ret s = .next t) :
    s.sp = 0 ∧ t = s.report .stackUnderflow (encode .ret) ∨ s.sp ≠ 0 ∧ t = s.pop.setPc s.top := by
  by_cases hsp : s.sp = 0
  · rw [exec_ret_of_empty hsp] at h
    cases h
    exact .inl ⟨hsp, rfl⟩
  · rw [exec_ret_of_nonempty hsp] at h
    cases h
    exact .inr ⟨hsp, rfl⟩

theorem exec_call_next {s t : State} {a : Addr} (h : exec (.call a) s = .next t) :
    s.sp = s.params.stackCapacity ∧ t = s.report .stackOverflow (encode (.call a)) ∨
      s.sp ≠ s.params.stackCapacity ∧ t = (s.push s.pc).setPc (jumpTarget a) := by
  by_cases hsp : s.sp = s.params.stackCapacity
  · rw [exec_call_of_full a hsp] at h
    cases h
    exact .inl ⟨hsp, rfl⟩
  · rw [exec_call_of_room a hsp] at h
    cases h
    exact .inr ⟨hsp, rfl⟩

/-- Every instruction keeps to the table of R28: what it does not write it leaves as it was. -/
theorem exec_sameBut {i : Instr} {s t : State} (h : exec i s = .next t) : SameBut (writtenBy i) s t := by
  cases i with
  | cls => exact .of_next h (drawn_sameBut s _)
  | ret =>
    obtain ⟨-, rfl⟩ | ⟨-, rfl⟩ := exec_ret_next h
    · exact (addReport_sameBut s _).mono (by simp [writtenBy])
    · exact ((pop_sameBut s).trans (setPc_sameBut _ _)).mono (by simp [writtenBy])
  | call a =>
    obtain ⟨-, rfl⟩ | ⟨-, rfl⟩ := exec_call_next h
    · exact (addReport_sameBut s _).mono (by simp [writtenBy])
    · exact ((push_sameBut s _).trans (setPc_sameBut _ _)).mono (by simp [writtenBy])
  | jp | jpV0 => exact .of_next h (setPc_sameBut s _)
  | seImm | sneImm | seReg | sneReg => exact .of_next h (skipIf_sameBut s _)
  | skp | sknp => exact .of_ite h (skipIf_sameBut s _)
  | ldImm | addImm | ldReg | orReg | andReg | xorReg | ldVxDt => exact .of_next h (setReg_sameBut s _ _)
  | addReg | sub | shr | subn | shl => exact .of_next h (setResultAndFlag_sameBut s _ _ _)
  | rnd => exact .of_next h ((setReg_sameBut s _ _).trans (noteDraw_sameBut _))
  | loadRegs x => exact .of_ite (exec_loadRegs s x ▸ h) (setRegsFrom_readBytes_sameBut s x _)
  | drw x y n =>
    obtain ⟨-, rfl⟩ := exec_drw_next h
    exact afterDraw_sameBut s _
  | ldI | ldFont => exact .of_next h (setI_sameBut s _)
  | addI => exact .of_ite h (setI_sameBut s _)
  | bcd x => exact .of_ite (exec_bcd s x ▸ h) (setMem_sameBut s _)
  | storeRegs x => exact .of_ite (exec_storeRegs s x ▸ h) (setMem_sameBut s _)
  | ldDtVx => exact .of_next h ((setDt_sameBut s _).trans (setDtRef_sameBut _ _))
  | ldStVx => exact .of_next h (setSt_sameBut s _)
  | waitKey => exact .of_next h (enterWait_sameBut s _)

end Sys2Proof.Machine
end

section
/-! PROOFS. The table of R28 read by its elements: which instructions write each of them. -/

namespace Sys2Proof.Machine

section Writers
variable {i : Instr}

theorem writes_reg {j : Reg} (h : .reg j ∈ writtenBy i) :
    (∃ nn, i = .ldImm j nn ∨ i = .addImm j nn ∨ i = .rnd j nn) ∨
    (∃ y, i = .ldReg j y ∨ i = .orReg j y ∨ i = .andReg j y ∨ i = .xorReg j y ∨ i = .addReg j y ∨
      i = .sub j y ∨ i = .shr j y ∨ i = .subn j y ∨ i = .shl j y) ∨
    i = .ldVxDt j ∨ (∃ x, i = .loadRegs x ∧ j ≤ x) ∨
    (j = 15 ∧ ((∃ x y, i = .addReg x y ∨ i = .sub x y ∨ i = .shr x y ∨ i = .subn x y ∨ i = .shl x y) ∨
      ∃ x y n, i = .drw x y n)) := by
  cases i <;> simp_all [writtenBy, eq_comm]

theorem writes_pc (h : .pc ∈ writtenBy i) :
    (∃ a, i = .jp a ∨ i = .call a ∨ i = .jpV0 a) ∨ i = .ret ∨
    (∃ x nn, i = .seImm x nn ∨ i = .sneImm x nn) ∨ (∃ x y, i = .seReg x y ∨ i = .sneReg x y) ∨
    ∃ x, i = .skp x ∨ i = .sknp x := by
  cases i <;> simp_all [writtenBy]

theorem writes_index (h : .index ∈ writtenBy i) : (∃ a, i = .ldI a) ∨ (∃ x, i = .addI x) ∨ ∃ x, i = .ldFont x := by
  cases i <;> simp_all [writtenBy]

theorem writes_stack (h : .stack ∈ writtenBy i) : ∃ a, i = .call a := by
  cases i <;> simp_all [writtenBy]

theorem writes_sp (h : .sp ∈ writtenBy i) : i = .ret ∨ ∃ a, i = .call a := by
  cases i <;> simp_all [writtenBy]

theorem writes_dt (h : .dt ∈ writtenBy i) : ∃ x, i = .ldDtVx x := by
  cases i <;> simp_all [writtenBy]

theorem writes_dtRef (h : .dtRef ∈ writtenBy i) : ∃ x, i = .ldDtVx x := by
  cases i <;> simp_all [writtenBy]

theorem writes_st (h : .st ∈ writtenBy i) : ∃ x, i = .ldStVx x := by
  cases i <;> simp_all [writtenBy]

theorem writes_mem (h : .mem ∈ writtenBy i) : (∃ x, i = .bcd x) ∨ ∃ x, i = .storeRegs x := by
  cases i <;> simp_all [writtenBy]

theorem writes_disp (h : .disp ∈ writtenBy i) : i = .cls ∨ ∃ x y n, i = .drw x y n := by
  cases i <;> simp_all [writtenBy]

theorem writes_displayChanged (h : .displayChanged ∈ writtenBy i) : i = .cls ∨ ∃ x y n, i = .drw x y n := by
  cases i <;> simp_all [writtenBy]

theorem writes_blocking (h : .blocking ∈ writtenBy i) : ∃ x, i = .waitKey x := by
  cases i <;> simp_all [writtenBy]

theorem writes_target (h : .target ∈ writtenBy i) : ∃ x, i = .waitKey x := by
  cases i <;> simp_all [writtenBy]

theorem writes_draws (h : .draws ∈ writtenBy i) : ∃ x nn, i = .rnd x nn := by
  cases i <;> simp_all [writtenBy]

theorem writes_reports (h : .reports ∈ writtenBy i) : i = .ret ∨ ∃ a, i = .call a := by
  cases i <;> simp_all [writtenBy]

theorem not_writes_keys : .keys ∉ writtenBy i := by
  cases i <;> simp [writtenBy]

theorem not_writes_params : .params ∉ writtenBy i := by
  cases i <;> simp [writtenBy]

theorem not_writes_now : .now ∉ writtenBy i := by
  cases i <;> simp [writtenBy]

theorem not_writes_schedule : .schedule ∉ writtenBy i := by
  cases i <;> simp [writtenBy]

end Writers

/-! ### No instruction writes an input -/

section Inputs
variable {i : Instr} {s t : State} (h : exec i s = .next t)
include h

theorem exec_keys : t.keys = s.keys := exec_sameBut h .keys not_writes_keys

theorem exec_params : t.params = s.params := exec_sameBut h .params not_writes_params

theorem exec_now : t.now = s.now := exec_sameBut h .now not_writes_now

theorem exec_schedule : t.schedule = s.schedule := exec_sameBut h .schedule not_writes_schedule

/-- Only the two recovered errors of R80 and R82 report. -/
theorem exec_reports (hne : t.reports ≠ s.reports) :
    (i = .ret ∧ s.sp = 0) ∨ ∃ a, i = .call a ∧ s.sp = s.params.stackCapacity := by
  obtain rfl | ⟨a, rfl⟩ := writes_reports ((exec_sameBut h).mem_of_not_same (e := .reports) hne)
  · obtain ⟨hsp, -⟩ | ⟨-, rfl⟩ := exec_ret_next h
    · exact .inl ⟨rfl, hsp⟩
    · exact absurd rfl hne
  · obtain ⟨hsp, -⟩ | ⟨-, rfl⟩ := exec_call_next h
    · exact .inr ⟨a, rfl, hsp⟩
    · exact absurd rfl hne

end Inputs

/-- Settles O15: an element that changed is among those its instruction writes. -/
theorem stateElementsChangeOnlyByTheirWriters : Obligations.StateElementsChangeOnlyByTheirWriters := by
  intro i s t h
  have written : ∀ {e : Element}, ¬e.Same s t → e ∈ writtenBy i := (exec_sameBut h).mem_of_not_same
  exact ⟨fun j hj => writes_reg (written (e := .reg j) hj), fun hpc => writes_pc (written (e := .pc) hpc),
    fun hi => writes_index (written (e := .index) hi), fun hstack => writes_stack (written (e := .stack) hstack),
    fun hsp => writes_sp (written (e := .sp) hsp),
    Or.rec (fun hdt => writes_dt (written (e := .dt) hdt)) fun href => writes_dtRef (written (e := .dtRef) href),
    fun hst => writes_st (written (e := .st) hst), fun hmem => writes_mem (written (e := .mem) hmem),
    Or.rec (fun hdisp => writes_disp (written (e := .disp) hdisp)) fun hchanged =>
      writes_displayChanged (written (e := .displayChanged) hchanged),
    Or.rec (fun hblock => writes_blocking (written (e := .blocking) hblock)) fun htarget =>
      writes_target (written (e := .target) htarget),
    fun hdraws => writes_draws (written (e := .draws) hdraws), exec_reports h, exec_keys h, exec_params h, exec_now h,
    exec_schedule h⟩

end Sys2Proof.Machine
end

section
/-! PROOFS. The state invariant (10_state.md rules R15, R17, R29, R186): HOST's turn, the poll, the start of an
instruction and every instruction keep it. -/

namespace Sys2Proof.Machine

/-! ### HOST's turn -/

theorem tick_sameBut (s : State) : SameBut [.dt, .st] s s.tick :=
  (setDt_sameBut s _).trans (setSt_sameBut _ _)

/-- `age_timers` does nothing, or ticks and takes the present instant as its reference (R187). -/
theorem ageTimers_cases (s : State) : s.ageTimers = s ∨ s.ageTimers = s.tick.setDtRef s.now := by
  unfold State.ageTimers
  split
  · exact .inr rfl
  · exact .inl rfl

theorem ageTimers_sameBut (s : State) : SameBut [.dt, .st, .dtRef] s s.ageTimers := by
  obtain h | h := ageTimers_cases s <;> rw [h]
  · exact .refl _ s
  · exact (tick_sameBut s).trans (setDtRef_sameBut _ _)

theorem hostOp_sameBut (s : State) (op : HostOp) : SameBut [.keys, .dt, .st, .dtRef, .now] s (s.hostOp op) := by
  cases op with
  | setInputs k => exact (setKeys_sameBut s k).mono (by simp)
  | advanceClock num den => exact (setNow_sameBut s _).mono (by simp)
  | ageTimers => exact (ageTimers_sameBut s).mono (by simp)
  | display => exact .refl _ s

theorem hostOps_sameBut (s : State) (ops : List HostOp) :
    SameBut [.keys, .dt, .st, .dtRef, .now] s (s.hostOps ops) := by
  induction ops generalizing s with
  | nil => exact .refl _ s
  | cons op ops ih => exact ((hostOp_sameBut s op).trans (ih _)).mono (by simp)

/-- HOST's turn leaves every element alone but the latch, the timers, `DT_REF`, the clock and its own schedule. -/
theorem hostTurn_sameBut (s : State) : SameBut [.keys, .dt, .st, .dtRef, .now, .schedule] s s.hostTurn := by
  unfold State.hostTurn
  split
  · exact .refl _ s
  · exact ((setSchedule_sameBut s _).trans (hostOps_sameBut _ _)).mono (by simp)

/-! ### The invariant -/

/-- The elements that the invariant speaks of. -/
def invElements : List Element := [.mem, .stack, .sp, .pc, .params, .dtRef, .now]

/-- An update of other elements keeps the invariant. -/
theorem State.Inv.of_sameBut {es : List Element} {s t : State} (hs : s.Inv) (h : SameBut es s t)
    (hes : ∀ e ∈ invElements, e ∉ es) : t.Inv := by
  have same : ∀ e ∈ invElements, e.Same s t := fun e he => h e (hes e he)
  have hmem : t.mem = s.mem := same .mem (by decide)
  have hstack : t.stack = s.stack := same .stack (by decide)
  have hsp : t.sp = s.sp := same .sp (by decide)
  have hpc : t.pc = s.pc := same .pc (by decide)
  have hparams : t.params = s.params := same .params (by decide)
  have hdtRef : t.dtRef = s.dtRef := same .dtRef (by decide)
  have hnow : t.now = s.now := same .now (by decide)
  constructor
  case memWf => rw [hmem]; exact hs.memWf
  case stackLength => rw [hstack, hparams]; exact hs.stackLength
  case spBound => rw [hsp, hparams]; exact hs.spBound
  case pcBound => rw [hpc]; exact hs.pcBound
  case slotBound => rw [hsp, hstack]; exact hs.slotBound
  case dtRefPast => rw [hdtRef, hnow]; exact hs.dtRefPast

theorem State.Inv.setPc {s : State} {p : Word} (hs : s.Inv) (hp : p.toNat ≤ 0x10FE) : (s.setPc p).Inv :=
  { hs with pcBound := hp }

theorem State.Inv.hostOp {s : State} (hs : s.Inv) (op : HostOp) : (s.hostOp op).Inv := by
  cases op with
  | setInputs k => exact hs.of_sameBut (setKeys_sameBut s k) (by decide)
  | advanceClock num den => exact { hs with dtRefPast := hs.dtRefPast.trans (le_clockAfter s.now _) }
  | ageTimers =>
    rw [State.hostOp]
    obtain h | h := ageTimers_cases s <;> rw [h]
    · exact hs
    · exact { hs.of_sameBut (tick_sameBut s) (by decide) with dtRefPast := le_rfl }
  | display => exact hs

theorem State.Inv.hostOps {s : State} (hs : s.Inv) (ops : List HostOp) : (s.hostOps ops).Inv := by
  induction ops generalizing s with
  | nil => exact hs
  | cons op ops ih => exact ih (hs.hostOp op)

theorem State.Inv.hostTurn {s : State} (hs : s.Inv) : s.hostTurn.Inv := by
  unfold State.hostTurn
  split
  · exact hs
  · exact (hs.of_sameBut (setSchedule_sameBut s _) (by decide)).hostOps _

theorem poll_sameBut (s : State) : SameBut [.displayChanged, .reg s.target, .blocking] s s.poll := by
  unfold State.poll State.resolveWait
  split
  · exact (setDisplayChanged_sameBut s false).trans ((setReg_sameBut _ _ _).trans (leaveWait_sameBut _))
  · exact (setDisplayChanged_sameBut s false).mono (by simp)

/-- The advanced `PC` of a fetched instruction is at most 0x1000, the bound of a return address (R29). -/
theorem startInstr_pc_le {s : State} {w : Word} (hf : s.fetch = .ok w) : s.startInstr.pc.toNat ≤ 0x1000 := by
  obtain ⟨hpc, -, -⟩ := fetch_eq_ok.1 hf
  rw [startInstr_pc, BitVec.toNat_add]
  exact (Nat.mod_le _ _).trans (Nat.add_le_add_right hpc 2)

theorem State.Inv.startInstr {s : State} {w : Word} (hs : s.Inv) (hf : s.fetch = .ok w) : s.startInstr.Inv :=
  { hs with pcBound := (startInstr_pc_le hf).trans (by decide) }

/-! ### The operations of the instructions -/

theorem State.Inv.skipIf {s : State} (hs : s.Inv) (hpc : s.pc.toNat ≤ 0x1000) (c : Bool) : (s.skipIf c).Inv := by
  cases c
  · exact hs
  · refine hs.setPc ?_
    rw [BitVec.toNat_add]
    exact (Nat.mod_le _ _).trans (Nat.add_le_add hpc (show (2 : Word).toNat ≤ 0xFE by decide))

theorem State.Inv.writeBytes {s : State} (hs : s.Inv) (a : Nat) (us : List Byte) :
    (s.setMem (s.mem.writeBytes a us)).Inv :=
  { hs with memWf := Memory.writeBytes_wf a us hs.memWf }

theorem top_le {s : State} (hs : s.Inv) (hsp : s.sp ≠ 0) : s.top.toNat ≤ 0x1000 :=
  hs.slotBound (s.sp - 1) (Nat.sub_lt (Nat.pos_of_ne_zero hsp) Nat.one_pos)

theorem State.Inv.pop {s : State} (hs : s.Inv) : s.pop.Inv :=
  { hs with
    spBound := (Nat.sub_le _ _).trans hs.spBound
    slotBound := fun k hk => hs.slotBound k (Nat.lt_of_lt_of_le hk (Nat.sub_le _ _)) }

theorem State.Inv.push {s : State} {p : Word} (hs : s.Inv) (hroom : s.sp ≠ s.params.stackCapacity)
    (hp : p.toNat ≤ 0x1000) : (s.push p).Inv := by
  have hlt : s.sp < s.params.stackCapacity := lt_of_le_of_ne hs.spBound hroom
  have hslot : ∀ k, k < s.sp + 1 → ((s.stack.set s.sp p).getD k 0).toNat ≤ 0x1000 := by
    intro k hk
    rw [List.getD_eq_getElem?_getD]
    by_cases hks : k = s.sp
    · rw [hks, List.getElem?_set_self (hs.stackLength ▸ hlt)]
      exact hp
    · rw [List.getElem?_set_ne (Ne.symm hks), ← List.getD_eq_getElem?_getD]
      exact hs.slotBound k (by omega)
  exact { hs with
    stackLength := (List.length_set ..).trans hs.stackLength
    spBound := hlt
    slotBound := hslot }

theorem State.Inv.jump {s : State} (hs : s.Inv) (a : Addr) : (s.setPc (jumpTarget a)).Inv :=
  hs.setPc (by rw [jumpTarget_toNat]; omega)

/-! ### The instructions -/

/-- An instruction that raises a fault in one case and answers a next state in the other. -/
theorem next_of_ite {c : Prop} [Decidable c] {f : Fault} {t u : State}
    (h : (if c then .fault f else .next u : Result) = .next t) : ¬c ∧ t = u := by
  split at h
  · cases h
  · cases h
    exact ⟨‹_›, rfl⟩

/-- Every instruction keeps the invariant, from an advanced `PC` on, which is what `2nnn` pushes (R29, R82). -/
theorem State.Inv.exec {i : Instr} {s t : State} (hs : s.Inv) (hpc : s.pc.toNat ≤ 0x1000) (h : exec i s = .next t) :
    t.Inv := by
  cases i with
  | ret =>
    obtain ⟨-, rfl⟩ | ⟨hsp, rfl⟩ := exec_ret_next h
    · exact hs.of_sameBut (addReport_sameBut s _) (by decide)
    · exact hs.pop.setPc ((top_le hs hsp).trans (by decide))
  | call a =>
    obtain ⟨-, rfl⟩ | ⟨hroom, rfl⟩ := exec_call_next h
    · exact hs.of_sameBut (addReport_sameBut s _) (by decide)
    · exact (hs.push hroom hpc).jump a
  | jp a =>
    cases h
    exact hs.jump a
  | jpV0 a =>
    cases h
    refine hs.setPc ?_
    rw [offsetTarget_toNat]
    omega
  | seImm | sneImm | seReg | sneReg =>
    cases h
    exact hs.skipIf hpc _
  | skp | sknp =>
    obtain ⟨-, rfl⟩ := next_of_ite h
    exact hs.skipIf hpc _
  | bcd x =>
    obtain ⟨-, rfl⟩ := next_of_ite (exec_bcd s x ▸ h)
    exact hs.writeBytes _ _
  | storeRegs x =>
    obtain ⟨-, rfl⟩ := next_of_ite (exec_storeRegs s x ▸ h)
    exact hs.writeBytes _ _
  | ldDtVx x =>
    cases h
    exact { hs with dtRefPast := le_rfl }
  | _ => exact hs.of_sameBut (exec_sameBut h) (by simp [invElements, writtenBy])

/-! ### The statements -/

/-- Settles O12: HOST's turn keeps the invariant, and so does each of the three ways in which a step completes. -/
theorem stepKeepsTheStateInvariant : Obligations.StepKeepsTheStateInvariant := by
  intro s t hs h
  obtain ⟨-, hstep⟩ | ⟨-, f, -, hstep⟩ | ⟨-, w, i, hf, -, hstep⟩ | ⟨-, w, hf, -, hstep⟩ := step_cases s <;>
    rw [hstep] at h
  case inl =>
    cases h
    exact hs.hostTurn.of_sameBut (poll_sameBut _) (by simp [invElements])
  case inr.inl => cases h
  case inr.inr.inl => exact (hs.hostTurn.startInstr hf).exec (startInstr_pc_le hf) h
  case inr.inr.inr =>
    cases h
    exact (hs.hostTurn.startInstr hf).of_sameBut (addReport_sameBut _ _) (by decide)

/-- Settles O13: nothing is on the stack, no cell is listed, and the clock stands at its reference instant. -/
theorem resetMeetsTheStateInvariant : Obligations.ResetMeetsTheStateInvariant where
  memWf := rfl
  stackLength := rfl
  spBound := Nat.zero_le _
  pcBound := by decide
  slotBound := fun k hk => absurd hk (Nat.not_lt_zero k)
  dtRefPast := le_rfl

end Sys2Proof.Machine
end

section
/-! PROOFS. The step (30_encoding.md rules R63, R64; 44_keys_timers.md rules R153, R157): its fetch, the key-wait
poll, what it returns, and the IDLE state (70_reset_and_hazards.md rule R213). -/

namespace Sys2Proof.Machine

/-! ### The fetch -/

theorem fetch_of_above {s : State} (h : 0xFFE < s.pc.toNat) : s.fetch = .error (.oobFetch s.pc) := if_pos h

theorem fetch_of_odd {s : State} (hpc : s.pc.toNat ≤ 0xFFE) (hodd : s.pc.toNat % 2 = 1)
    (hpolicy : s.params.oddPc = .fault) : s.fetch = .error (.misalignedFetch s.pc) := by
  rw [State.fetch, if_neg (not_lt.2 hpc), pc_odd, decide_eq_true hodd, decide_eq_true hpolicy]
  rfl

theorem word_toNat (m : Memory) (a : Nat) : (m.word a).toNat = 256 * (m.read a).toNat + (m.read (a + 1)).toNat := by
  rw [Memory.word, wordOfBytes, BitVec.toNat_append, ← Nat.shiftLeft_add_eq_or_of_lt (m.read (a + 1)).isLt,
    Nat.shiftLeft_eq, Nat.mul_comm]

theorem step_of_fetch_error {s : State} {f : Fault} (hb : s.hostTurn.blocking = false)
    (hf : s.hostTurn.fetch = .error f) : step s = .fault f := by
  rw [step, coreStep, hb, hf]
  rfl

theorem step_of_decode {s : State} {w : Word} {i : Instr} (hb : s.hostTurn.blocking = false)
    (hf : s.hostTurn.fetch = .ok w) (hd : decode w = some i) : step s = exec i s.hostTurn.startInstr := by
  rw [step_eq_runWord hb hf, runWord, hd]

/-- Settles O6: a legal fetch of the two bytes, and the decoded instruction from the state it starts in. -/
theorem stepRunsTheDecodedInstruction : Obligations.StepRunsTheDecodedInstruction := by
  rintro s _ i rfl hb hpc heven hd
  exact step_of_decode hb (fetch_eq_ok.2 ⟨hpc, heven, rfl⟩) hd

/-- Settles O8: the three cases of the fetch, and that its fault is the step's. -/
theorem fetchFaultsBeforeItReads : Obligations.FetchFaultsBeforeItReads := fun _ =>
  ⟨fetch_of_above, fetch_of_odd, fun hpc heven => ⟨_, fetch_eq_ok.2 ⟨hpc, heven, rfl⟩, word_toNat _ _⟩,
    fun _ _ hq hb hf => step_of_fetch_error (hq ▸ hb) (hq ▸ hf)⟩

/-! ### The key-wait poll -/

theorem step_of_blocking {s : State} (hb : s.hostTurn.blocking = true) : step s = .next s.hostTurn.poll := if_pos hb

theorem lowest_eq_some {keys : Keys} {k : Nat} (hk : keys.pressed k = true)
    (hlower : ∀ j, j < k → keys.pressed j = false) : keys.lowest = some k := by
  cases h : keys.lowest with
  | none => cases (lowest_none.1 h k).symm.trans hk
  | some j =>
    obtain ⟨-, hj, hjlower⟩ := lowest_some h
    rcases Nat.lt_trichotomy j k with hlt | rfl | hgt
    · cases (hlower j hlt).symm.trans hj
    · rfl
    · cases (hjlower k hgt).symm.trans hk

theorem poll_of_noKey {s : State} (h : s.keys.lowest = none) : s.poll = s.setDisplayChanged false := by
  rw [State.poll, State.resolveWait, State.setDisplayChanged_keys, h]

theorem poll_of_key {s : State} {k : Nat} (h : s.keys.lowest = some k) :
    s.poll = ((s.setDisplayChanged false).setReg s.target (BitVec.ofNat 8 k)).leaveWait := by
  rw [State.poll, State.resolveWait, State.setDisplayChanged_keys, h]
  rfl

theorem poll_displayChanged (s : State) : s.poll.displayChanged = false := by
  cases h : s.keys.lowest with
  | none => rw [poll_of_noKey h]; rfl
  | some k => rw [poll_of_key h]; rfl

/-- A poll ends the wait exactly when a key is pressed (R153). -/
theorem poll_blocking {s : State} (hb : s.blocking = true) :
    s.poll.blocking = true ↔ ∀ k, s.keys.pressed k = false := by
  rw [← lowest_none]
  cases h : s.keys.lowest with
  | none => rw [poll_of_noKey h]; simp [hb]
  | some k => rw [poll_of_key h]; simp

theorem setDisplayChanged_frame (s : State) (b : Bool) : Frame [.displayChanged] s (s.setDisplayChanged b) := by
  intro p hp
  cases p
  case displayChanged => exact absurd (List.mem_singleton_self _) hp
  all_goals simp [Part.Kept]

theorem leaveWait_frame (s : State) : Frame [.keyWait] s s.leaveWait := by
  intro p hp
  cases p
  case keyWait => exact absurd (List.mem_singleton_self _) hp
  all_goals simp [Part.Kept]

/-- Settles O9: without a key the poll only clears the returned value; the lowest key goes to `TARGET`'s register. -/
theorem blockingStepOnlyResolvesTheWait : Obligations.BlockingStepOnlyResolvesTheWait := by
  rintro s _ rfl hb
  refine ⟨fun hnone => ⟨_, step_of_blocking hb, ?noKey⟩, fun k hk hlower => ⟨_, step_of_blocking hb, ?key⟩⟩
  case noKey =>
    rw [poll_of_noKey (lowest_none.2 hnone)]
    exact ⟨rfl, setDisplayChanged_frame _ _⟩
  case key =>
    have hlow := lowest_eq_some hk hlower
    have hlt : k < 16 := (lowest_some hlow).1
    rw [poll_of_key hlow]
    refine ⟨?value, setReg_regsKeptExcept _ _ _, rfl, rfl, rfl, ?frame⟩
    case value =>
      rw [State.leaveWait_reg, setReg_reg_same, BitVec.toNat_ofNat]
      omega
    case frame =>
      exact ((setDisplayChanged_frame _ _).trans ((setReg_frame _ _ _).trans (leaveWait_frame _))).mono (by simp)

/-! ### Who enters the wait, and who returns `display_changed` -/

theorem exec_blocking {i : Instr} {s t : State} (h : exec i s = .next t) (hb : s.blocking = false) :
    t.blocking = true ↔ ∃ x, i = .waitKey x ∧ t.target = x := by
  constructor
  · intro ht
    obtain ⟨x, rfl⟩ := writes_blocking ((exec_sameBut h).mem_of_not_same (e := .blocking) (by
      rw [Element.Same, ht, hb]
      decide))
    rw [exec_waitKey] at h
    cases h
    exact ⟨x, rfl, rfl⟩
  · rintro ⟨x, rfl, -⟩
    rw [exec_waitKey] at h
    cases h
    rfl

theorem exec_displayChanged {i : Instr} {s t : State} (h : exec i s = .next t) (hs : s.displayChanged = false) :
    t.displayChanged = true ↔ i = .cls ∨ ∃ x y n, i = .drw x y n := by
  constructor
  · intro ht
    exact writes_displayChanged ((exec_sameBut h).mem_of_not_same (e := .displayChanged) (by
      rw [Element.Same, ht, hs]
      decide))
  · rintro (rfl | ⟨x, y, n, rfl⟩)
    · rw [exec_cls] at h
      cases h
      rfl
    · obtain ⟨-, rfl⟩ := exec_drw_next h
      rfl

/-- Settles O10: a poll keeps the wait without a key; only `fx0a` among the instructions enters it. -/
theorem onlyWaitKeyEntersTheWait : Obligations.OnlyWaitKeyEntersTheWait := by
  rintro s _ t rfl h
  obtain ⟨hb, hstep⟩ | ⟨-, f, -, hstep⟩ | ⟨hb, w, i, hf, hd, hstep⟩ | ⟨hb, w, hf, hd, hstep⟩ := step_cases s <;>
    rw [hstep] at h
  case inl =>
    cases h
    rw [poll_blocking hb]
    simp [hb]
  case inr.inl => cases h
  case inr.inr.inl =>
    have hword : ∀ x, w = encode (.waitKey x) ↔ i = .waitKey x := fun x => by
      rw [eq_comm, ← decode_eq_some_iff, hd, Option.some_inj]
    rw [exec_blocking h hb]
    simp [hb, hf, hword]
  case inr.inr.inr =>
    have hword : ∀ x, w ≠ encode (.waitKey x) := by
      rintro x rfl
      rw [decode_encode] at hd
      cases hd
    cases h
    simp [hb, hf, hword, State.report, State.startInstr, State.advance]

/-- Settles O11: a poll and an unsupported word return false; of the instructions `00e0` and `dxyn` return true. -/
theorem displayChangedExactlyByClearAndDraw : Obligations.DisplayChangedExactlyByClearAndDraw := by
  rintro s _ t rfl h
  obtain ⟨hb, hstep⟩ | ⟨-, f, -, hstep⟩ | ⟨hb, w, i, hf, hd, hstep⟩ | ⟨hb, w, hf, hd, hstep⟩ := step_cases s <;>
    rw [hstep] at h
  case inl =>
    cases h
    simp [poll_displayChanged, hb]
  case inr.inl => cases h
  case inr.inr.inl =>
    rw [exec_displayChanged h rfl]
    simp [hb, hf, hd]
  case inr.inr.inr =>
    cases h
    simp [hf, hd, State.report]

/-! ### IDLE -/

/-- The word of a jump to an address below 0x1000, as R213 writes it. -/
theorem jumpWord_eq {p : Word} (hp : p.toNat ≤ 0xFFE) : 0x1000 ||| p = encode (.jp (p.setWidth 12)) := by
  have hor := Nat.two_pow_add_eq_or_of_lt (i := 12) (b := p.toNat) (by omega) 1
  apply BitVec.eq_of_toNat_eq
  rw [encode, encAddr_toNat, BitVec.toNat_or, BitVec.toNat_setWidth, Nat.mod_eq_of_lt (by omega)]
  exact hor.symm

theorem jumpTarget_setWidth {p : Word} (hp : p.toNat ≤ 0xFFE) : jumpTarget (p.setWidth 12) = p := by
  apply BitVec.eq_of_toNat_eq
  rw [jumpTarget_toNat, BitVec.toNat_setWidth, Nat.mod_eq_of_lt (by omega)]

theorem State.Idle.of_sameBut {es : List Element} {s t : State} (hs : s.Idle) (h : SameBut es s t)
    (hes : ∀ e ∈ [Element.blocking, .pc, .mem], e ∉ es) : t.Idle := by
  have hblocking : t.blocking = s.blocking := h .blocking (hes _ (by decide))
  have hpc : t.pc = s.pc := h .pc (hes _ (by decide))
  have hmem : t.mem = s.mem := h .mem (hes _ (by decide))
  rw [State.Idle, hblocking, hpc, hmem]
  exact hs

/-- The jump of an IDLE state brings `PC` back to where it was, so that only the returned value is written. -/
theorem step_of_idle {s : State} (hs : s.hostTurn.Idle) : step s = .next (s.hostTurn.setDisplayChanged false) := by
  obtain ⟨hb, hpc, heven, hword⟩ := hs
  have hfetch : s.hostTurn.fetch = .ok (encode (.jp (s.hostTurn.pc.setWidth 12))) := by
    rw [pc_odd, decide_eq_false_iff_not] at heven
    exact fetch_eq_ok.2 ⟨hpc, .inl (Nat.mod_two_ne_one.1 heven), by rw [hword, jumpWord_eq hpc]⟩
  rw [step_of_decode hb hfetch (decode_encode _), exec_jp, jumpTarget_setWidth hpc]
  rfl

/-- Settles O14: the step writes the returned value only, which IDLE does not speak of. -/
theorem idleStateStaysIdle : Obligations.IdleStateStaysIdle := by
  intro s hs
  have hturn : s.hostTurn.Idle := hs.of_sameBut (hostTurn_sameBut s) (by decide)
  have hstep := step_of_idle hturn
  have hframe := setDisplayChanged_frame s.hostTurn false
  refine ⟨⟨_, hstep, hostTurn_sameBut s .reports (by decide)⟩, _, hstep, ?idle, rfl, hframe,
    (hostTurn_frame s).trans hframe⟩
  exact hturn.of_sameBut (setDisplayChanged_sameBut _ _) (by decide)

end Sys2Proof.Machine
end

section
/-! PROOFS. HOST's turn, its operations and the clock (60_exceptions.md rules R185 to R190), and the life of a machine
over HOST's calls (rule R177). -/

namespace Sys2Proof.Machine

/-! ### HOST's turn -/

theorem hostTurn_of_nil {s : State} (h : s.schedule = []) : s.hostTurn = s := by
  rw [State.hostTurn, h]

theorem hostTurn_of_cons {s : State} {ops : List HostOp} {rest : List (List HostOp)} (h : s.schedule = ops :: rest) :
    s.hostTurn = (s.setSchedule rest).hostOps ops := by
  rw [State.hostTurn, h]

theorem hostTurn_schedule (s : State) : s.hostTurn.schedule = s.schedule.tail := by
  cases h : s.schedule with
  | nil => rw [hostTurn_of_nil h, h, List.tail_nil]
  | cons ops rest =>
    rw [hostTurn_of_cons h, List.tail_cons]
    exact hostOps_sameBut _ ops .schedule (by decide)

/-- The elements that CORE reads and never writes. -/
def inputElements : List Element := [.keys, .params, .now, .schedule]

theorem exec_keeps_input {e : Element} (he : e ∈ inputElements) {i : Instr} {s t : State} (h : exec i s = .next t) :
    e.Same s t := by
  refine exec_sameBut h e ?_
  simp only [inputElements, List.mem_cons, List.not_mem_nil, or_false] at he
  obtain rfl | rfl | rfl | rfl := he
  · exact not_writes_keys
  · exact not_writes_params
  · exact not_writes_now
  · exact not_writes_schedule

theorem startInstr_sameBut (s : State) : SameBut [.pc, .displayChanged] s s.startInstr :=
  (setPc_sameBut s _).trans (setDisplayChanged_sameBut _ _)

theorem SameBut.keeps_input {es : List Element} {s t : State} (h : SameBut es s t)
    (hes : ∀ e ∈ inputElements, e ∉ es) {e : Element} (he : e ∈ inputElements) : e.Same s t := h e (hes e he)

/-- Within a step only HOST's turn changes an input. -/
theorem step_keeps_input {e : Element} (he : e ∈ inputElements) {s t : State} (h : step s = .next t) :
    e.Same s.hostTurn t := by
  have hstart : e.Same s.hostTurn s.hostTurn.startInstr := (startInstr_sameBut _).keeps_input (by decide) he
  obtain ⟨-, hstep⟩ | ⟨-, f, -, hstep⟩ | ⟨-, w, i, -, -, hstep⟩ | ⟨-, w, -, -, hstep⟩ := step_cases s <;>
    rw [hstep] at h
  case inl =>
    cases h
    exact (poll_sameBut _).keeps_input (by simp [inputElements]) he
  case inr.inl => cases h
  case inr.inr.inl => exact hstart.trans (exec_keeps_input he h)
  case inr.inr.inr =>
    cases h
    exact hstart.trans ((addReport_sameBut _ _).keeps_input (by decide) he)

/-- Settles O53: HOST's turn is the fold over the head of the schedule, and the rest of the step keeps its inputs. -/
theorem hostTurnDoesTheScheduledOperations : Obligations.HostTurnDoesTheScheduledOperations := fun s =>
  ⟨hostTurn_of_nil, fun ops rest h => (hostTurn_of_cons h).trans (hostOps_eq_foldl _ ops), hostTurn_frame s,
    fun _ h => ⟨Eq.trans (step_keeps_input (e := .schedule) (by decide) h) (hostTurn_schedule s),
      step_keeps_input (e := .keys) (by decide) h, step_keeps_input (e := .now) (by decide) h⟩⟩

/-! ### The operations -/

theorem countDown_zero : countDown 0 = 0 := rfl

theorem countDown_toNat {b : Byte} (h : b ≠ 0) : (countDown b).toNat + 1 = b.toNat := by
  have hne : b.toNat ≠ 0 := fun h0 => h (BitVec.eq_of_toNat_eq h0)
  rw [countDown, BitVec.toNat_ofNat]
  omega

theorem tick_frame (s : State) : Frame [.delayTimer, .soundTimer] s s.tick :=
  (setDt_frame s _).trans (setSt_frame _ _)

theorem ageTimers_of_early {s : State} (h : s.now.ms - s.dtRef.ms < s.params.cadence.ms) : s.ageTimers = s :=
  if_neg (not_le.2 h)

theorem ageTimers_of_due {s : State} (h : s.params.cadence.ms ≤ s.now.ms - s.dtRef.ms) :
    s.ageTimers = s.tick.setDtRef s.now := if_pos h

theorem tick_st (s : State) : s.tick.st = if s.params.stAges then countDown s.st else s.st := rfl

/-- Settles O49: before one interval nothing, afterwards one tick and the present instant as the reference. -/
theorem ageTimersDecrementsAtMostOnce : Obligations.AgeTimersDecrementsAtMostOnce := by
  rintro s _ rfl
  refine ⟨ageTimers_of_early, fun hdue => ?due⟩
  rw [State.hostOp, ageTimers_of_due hdue, State.setDtRef_st, tick_st]
  refine ⟨fun hdt => ?dtZero, fun hdt => countDown_toNat hdt, ?stKept, fun hages hst => ?stCounts, rfl,
    (tick_frame s).trans (setDtRef_frame _ _)⟩
  case dtZero => exact (congrArg countDown hdt).trans countDown_zero
  case stKept =>
    rintro (hages | hst)
    · rw [hages]
      rfl
    · rw [hst, countDown_zero, ite_self]
  case stCounts =>
    rw [hages, if_pos rfl]
    exact countDown_toNat hst

theorem setNow_frame (s : State) (t : Time) : Frame [.clock] s (s.setNow t) := by
  intro p hp
  cases p
  case clock => exact absurd (List.mem_singleton_self _) hp
  all_goals simp [Part.Kept]

theorem hostOp_advanceClock_ms (s : State) (num den : Nat) :
    (s.hostOp (.advanceClock num den)).now.ms = s.now.ms + (num : Rat) / den := rfl

/-- Settles O54: the frame of every operation, and the clock's sum. -/
theorem hostOperationsChangeOnlyWhatTheyMay : Obligations.HostOperationsChangeOnlyWhatTheyMay := by
  intro s
  refine ⟨hostOp_frame s, fun num den => ⟨setNow_frame s _, fun hden => ?advances, fun hden => ?stays⟩, rfl, rfl⟩
  case advances =>
    rw [hostOp_advanceClock_ms, add_sub_cancel_left]
    exact div_mul_cancel₀ _ (Nat.cast_ne_zero.2 hden)
  case stays =>
    apply Time.ext
    rw [hostOp_advanceClock_ms, hden, Nat.cast_zero, div_zero, add_zero]

/-! ### The clock never goes back -/

theorem hostOps_now_le (s : State) (ops : List HostOp) : s.now.ms ≤ (s.hostOps ops).now.ms := by
  induction ops generalizing s with
  | nil => exact le_rfl
  | cons op ops ih =>
    refine le_trans ?_ (ih (s.hostOp op))
    rw [hostOp_now]
    exact le_clockAfter s.now op

theorem hostTurn_now_le (s : State) : s.now.ms ≤ s.hostTurn.now.ms := by
  unfold State.hostTurn
  split
  · exact le_rfl
  · exact hostOps_now_le (s.setSchedule _) _

theorem step_now_le {s t : State} (h : step s = .next t) : s.now.ms ≤ t.now.ms := by
  have hnow : t.now = s.hostTurn.now := step_keeps_input (e := .now) (by decide) h
  rw [hnow]
  exact hostTurn_now_le s

/-- Wherever `load` succeeds or fails, the clock stands where it stood (R186, R204). -/
theorem session_load_now (m : Session) (p : Params) (font : Vector Byte Config.fontSize) (image : List Byte) :
    (m.load p font image).now = m.now := by
  unfold Session.load load
  split_ifs <;> rfl

theorem session_step_now_le (m : Session) : m.now.ms ≤ m.step.now.ms := by
  cases m with
  | running s =>
    rw [Session.step]
    cases h : step s with
    | next t => exact step_now_le h
    | fault f => exact hostTurn_now_le s
    | refused r => exact hostTurn_now_le s
  | empty | faulted | refused => exact le_rfl

theorem session_hostOp_now_le (m : Session) (op : HostOp) : m.now.ms ≤ (m.hostOp op).now.ms := by
  cases m with
  | running s =>
    rw [Session.hostOp, Session.now, Session.now, hostOp_now]
    exact le_clockAfter s.now op
  | empty clock | faulted clock | refused clock => exact le_clockAfter clock op

theorem session_call_now_le (m : Session) (call : HostCall) : m.now.ms ≤ (m.call call).now.ms := by
  cases call with
  | load p font image => exact (congrArg Time.ms (session_load_now m p font image)).ge
  | step => exact session_step_now_le m
  | op o => exact session_hostOp_now_le m o

theorem session_calls_now_le (m : Session) (calls : List HostCall) :
    m.now.ms ≤ (calls.foldl Session.call m).now.ms := by
  induction calls generalizing m with
  | nil => exact le_rfl
  | cons call calls ih => exact (session_call_now_le m call).trans (ih _)

/-- Settles O55: every step and every call moves the clock forward or not at all. -/
theorem theClockNeverGoesBack : Obligations.TheClockNeverGoesBack :=
  ⟨fun _ _ => step_now_le, fun m calls => ⟨m.now.nonneg, session_calls_now_le m calls⟩⟩

/-! ### The life of a machine -/

/-- A call that is no `load` leaves a faulted machine faulted (R177). -/
theorem call_of_faulted (c : Time) (f : Fault) {call : HostCall} (h : ∀ p font image, call ≠ .load p font image) :
    ∃ c', (Session.faulted c f).call call = .faulted c' f := by
  cases call with
  | load p font image => exact absurd rfl (h p font image)
  | step => exact ⟨c, rfl⟩
  | op o => exact ⟨clockAfter c o, rfl⟩

theorem calls_of_faulted (c : Time) (f : Fault) {calls : List HostCall}
    (h : ∀ k ∈ calls, ∀ p font image, k ≠ .load p font image) :
    ∃ c', calls.foldl Session.call (.faulted c f) = .faulted c' f := by
  induction calls generalizing c with
  | nil => exact ⟨c, rfl⟩
  | cons call calls ih =>
    obtain ⟨c', hc'⟩ := call_of_faulted c f (h call List.mem_cons_self)
    rw [List.foldl_cons, hc']
    exact ih c' fun k hk => h k (List.mem_cons_of_mem _ hk)

theorem call_load_of_ok {m : Session} {p : Params} {font : Vector Byte Config.fontSize} {image : List Byte} {s : State}
    (h : load p font m.now image = .ok s) : m.call (.load p font image) = .running s := by
  rw [Session.call, Session.load, h]

theorem call_step_of_next {s t : State} (h : step s = .next t) : (Session.running s).call .step = .running t := by
  rw [Session.call, Session.step, h]

theorem call_step_of_fault {s : State} {f : Fault} (h : step s = .fault f) :
    (Session.running s).call .step = .faulted s.hostTurn.now f := by
  rw [Session.call, Session.step, h]

/-- Settles O52: a running machine follows its step, and only a `load` leaves a hard fault. -/
theorem hardFaultIsClearedOnlyByLoad : Obligations.HardFaultIsClearedOnlyByLoad :=
  ⟨fun _ _ => call_step_of_next, fun _ _ => call_step_of_fault, fun _ _ => rfl,
    fun c f _ h => calls_of_faulted c f h, fun _ _ _ _ _ => call_load_of_ok, fun _ _ _ _ _ => call_load_of_error⟩

end Sys2Proof.Machine
end

section
/-! PROOFS. What an instruction does not read: the sound timer (10_state.md rule R19), the reference instant, the
clock and HOST's schedule (60_exceptions.md rules R186, R189). An overlay rewrites these four fields; executing after
it is the same as executing before it. -/

namespace Sys2Proof.Machine

/-! ### Overlays -/

/-- A rewriting of the four fields that CORE's instructions do not read, but that two of them write. -/
structure Overlay where
  st : Byte → Byte
  dtRef : Time → Time
  now : Time → Time
  schedule : List (List HostOp) → List (List HostOp)

/-- The state with its four fields rewritten. -/
def State.overlay (s : State) (o : Overlay) : State :=
  { s with st := o.st s.st, dtRef := o.dtRef s.dtRef, now := o.now s.now, schedule := o.schedule s.schedule }

/-- The outcome with its next state rewritten. -/
def Overlay.outcome (o : Overlay) : Result → Result
  | .next t => .next (t.overlay o)
  | .fault f => .fault f
  | .refused r => .refused r

/-- An outcome that is another one rewritten, read by its cases. -/
theorem Overlay.outcome_cases {o : Overlay} {r r' : Result} (h : r' = o.outcome r) :
    (∀ t, r = .next t → r' = .next (t.overlay o)) ∧ ∀ f, r = .fault f → r' = .fault f := by
  constructor
  · rintro t rfl
    exact h
  · rintro f rfl
    exact h

/-- The overlay agrees with what the instruction writes: `fx18` writes `ST`, `fx15` the clock into `DT_REF`. -/
structure Overlay.Respects (o : Overlay) (i : Instr) : Prop where
  st : ∀ x, i = .ldStVx x → o.st = id
  dtRef : ∀ x, i = .ldDtVx x → o.dtRef = o.now

/-! ### The shared operations -/

theorem skipIf_overlay (s : State) (o : Overlay) (c : Bool) : (s.overlay o).skipIf c = (s.skipIf c).overlay o := by
  cases c <;> rfl

theorem setResultAndFlag_overlay (s : State) (o : Overlay) (x : Reg) (result flag : Byte) :
    (s.overlay o).setResultAndFlag x result flag = (s.setResultAndFlag x result flag).overlay o := by
  unfold State.setResultAndFlag
  rw [show (s.overlay o).params = s.params from rfl]
  cases s.params.vfOrder <;> rfl

theorem setRegsFrom_overlay (s : State) (o : Overlay) (k : Nat) (bs : List Byte) :
    (s.overlay o).setRegsFrom k bs = (s.setRegsFrom k bs).overlay o := by
  induction bs generalizing s k with
  | nil => rfl
  | cons b bs ih =>
    rw [State.setRegsFrom, State.setRegsFrom, ← ih]
    congr 1
    split <;> rfl

theorem drawPixels_overlay (s : State) (o : Overlay) (ps : List (Nat × Nat)) :
    (s.overlay o).drawPixels ps = o.outcome (s.drawPixels ps) := by
  rw [drawPixels_eq, drawPixels_eq, apply_ite o.outcome]
  rfl

theorem poll_overlay (s : State) (o : Overlay) : (s.overlay o).poll = s.poll.overlay o := by
  cases h : s.keys.lowest with
  | none => rw [poll_of_noKey h, poll_of_noKey (s := s.overlay o) h]; rfl
  | some k => rw [poll_of_key h, poll_of_key (s := s.overlay o) h]; rfl

/-! ### The instructions -/

theorem exec_overlay {o : Overlay} {i : Instr} (hi : o.Respects i) (s : State) :
    exec i (s.overlay o) = o.outcome (exec i s) := by
  cases i with
  | ret =>
    by_cases h : s.sp = 0
    · rw [exec_ret_of_empty h, exec_ret_of_empty (s := s.overlay o) h]; rfl
    · rw [exec_ret_of_nonempty h, exec_ret_of_nonempty (s := s.overlay o) h]; rfl
  | call a =>
    by_cases h : s.sp = s.params.stackCapacity
    · rw [exec_call_of_full a h, exec_call_of_full (s := s.overlay o) a h]; rfl
    · rw [exec_call_of_room a h, exec_call_of_room (s := s.overlay o) a h]; rfl
  | seImm | sneImm | seReg | sneReg => exact congrArg _ (skipIf_overlay s o _)
  | skp x =>
    rw [exec_skp, exec_skp, apply_ite o.outcome, skipIf_overlay]
    rfl
  | sknp x =>
    rw [exec_sknp, exec_sknp, apply_ite o.outcome, skipIf_overlay]
    rfl
  | addReg | sub | subn => exact congrArg _ (setResultAndFlag_overlay s o _ _ _)
  | shr | shl => exact congrArg _ (setResultAndFlag_overlay s o _ _ _)
  | addI x =>
    rw [exec_addI, exec_addI, apply_ite o.outcome]
    rfl
  | bcd x =>
    rw [exec_bcd, exec_bcd, apply_ite o.outcome]
    rfl
  | storeRegs x =>
    rw [exec_storeRegs, exec_storeRegs, apply_ite o.outcome]
    rfl
  | loadRegs x =>
    rw [exec_loadRegs, exec_loadRegs, apply_ite o.outcome, setRegsFrom_overlay]
    rfl
  | drw x y n =>
    rw [exec_drw, exec_drw, apply_ite o.outcome, drawPixels_overlay]
    rfl
  | ldStVx x =>
    obtain ⟨st, dtRef, now, schedule⟩ := o
    obtain rfl : st = id := hi.st x rfl
    rfl
  | ldDtVx x =>
    obtain ⟨st, dtRef, now, schedule⟩ := o
    obtain rfl : dtRef = now := hi.dtRef x rfl
    rfl
  | _ => rfl

/-! ### The sound timer and the clock -/

/-- The overlay of another sound timer. -/
def Overlay.sound (b : Byte) : Overlay where
  st := fun _ => b
  dtRef := id
  now := id
  schedule := id

/-- The overlay of another instant. -/
def Overlay.instant (c : Time) : Overlay where
  st := id
  dtRef := id
  now := fun _ => c
  schedule := id

theorem overlay_sound (s : State) (b : Byte) : s.overlay (.sound b) = s.setSt b := rfl

theorem overlay_instant (s : State) (c : Time) : s.overlay (.instant c) = s.setNow c := rfl

/-- Settles O17: `fx18` overwrites `ST` without reading it, every other instruction respects the overlay. -/
theorem noInstructionReadsTheSoundTimer : Obligations.NoInstructionReadsTheSoundTimer := by
  intro i s b
  by_cases hi : ∃ x, i = .ldStVx x
  · obtain ⟨x, rfl⟩ := hi
    refine ⟨fun t h => ⟨_, exec_ldStVx (s.setSt b) x, ?_⟩, fun f h => ?_⟩
    · rw [exec_ldStVx] at h
      cases h
      rfl
    · rw [exec_ldStVx] at h
      cases h
  · have respects : (Overlay.sound b).Respects i := ⟨fun x hx => absurd ⟨x, hx⟩ hi, fun _ _ => rfl⟩
    rw [← overlay_sound s b]
    obtain ⟨hnext, hfault⟩ := Overlay.outcome_cases (exec_overlay respects s)
    exact ⟨fun t h => ⟨_, hnext t h, rfl⟩, hfault⟩

/-- Settles O56: an instruction other than `fx15` respects the overlay of another instant. -/
theorem onlySettingTheDelayTimerReadsTheClock : Obligations.OnlySettingTheDelayTimerReadsTheClock := by
  intro i s c hi
  have respects : (Overlay.instant c).Respects i := ⟨fun _ _ => rfl, fun x hx => absurd hx (hi x)⟩
  simp only [← overlay_instant]
  exact Overlay.outcome_cases (exec_overlay respects s)

/-! ### The time-free machine -/

/-- The overlay that drops the reference instant, the clock and HOST's schedule (R189). -/
def Overlay.timeFree : Overlay where
  st := id
  dtRef := fun _ => clockOrigin
  now := fun _ => clockOrigin
  schedule := fun _ => []

theorem overlay_timeFree (s : State) : s.overlay .timeFree = s.timeFree := rfl

theorem timeFree_respects (i : Instr) : Overlay.timeFree.Respects i := ⟨fun _ _ => rfl, fun _ _ => rfl⟩

theorem runWord_timeFree (w : Word) (s : State) :
    runWord w s.timeFree = Overlay.timeFree.outcome (runWord w s) := by
  cases hd : decode w with
  | none =>
    rw [runWord_of_decode_none hd, runWord_of_decode_none hd]
    rfl
  | some i =>
    rw [runWord, runWord, hd, ← overlay_timeFree]
    exact exec_overlay (timeFree_respects i) s

/-- CORE's part of a step reads no time (R189). -/
theorem coreStep_timeFree (s : State) : coreStep s.timeFree = Overlay.timeFree.outcome (coreStep s) := by
  unfold coreStep
  rw [State.timeFree_blocking, show s.timeFree.fetch = s.fetch from rfl]
  split
  · exact congrArg _ (poll_overlay s .timeFree)
  · cases s.fetch with
    | error f => rfl
    | ok w => exact runWord_timeFree w s.startInstr

/-- Without time, a HOST operation is nothing, a `TICK` or a `set_inputs` (R188, R189). -/
theorem hostOp_timeFree (s : State) (op : HostOp) :
    ∃ s', (s' = s ∨ s' = s.tick ∨ ∃ k, s' = s.setKeys k) ∧ (s.hostOp op).timeFree = s'.timeFree := by
  cases op with
  | setInputs k => exact ⟨_, .inr (.inr ⟨k, rfl⟩), rfl⟩
  | advanceClock num den => exact ⟨s, .inl rfl, rfl⟩
  | ageTimers =>
    rw [State.hostOp]
    obtain h | h := ageTimers_cases s <;> rw [h]
    · exact ⟨s, .inl rfl, rfl⟩
    · exact ⟨s.tick, .inr (.inl rfl), rfl⟩
  | display => exact ⟨s, .inl rfl, rfl⟩

theorem hostOp_events (s : State) (op : HostOp) :
    ∃ events : List TimeFreeEvent, (s.hostOp op).timeFree = events.foldl State.timeFreeEvent s.timeFree := by
  obtain ⟨_, rfl | rfl | ⟨k, rfl⟩, h⟩ := hostOp_timeFree s op
  · exact ⟨[], h⟩
  · exact ⟨[.tick], h⟩
  · exact ⟨[.setInputs k], h⟩

theorem hostOps_events (s : State) (ops : List HostOp) :
    ∃ events : List TimeFreeEvent, (s.hostOps ops).timeFree = events.foldl State.timeFreeEvent s.timeFree := by
  induction ops generalizing s with
  | nil => exact ⟨[], rfl⟩
  | cons op ops ih =>
    obtain ⟨first, hfirst⟩ := hostOp_events s op
    obtain ⟨rest, hrest⟩ := ih (s.hostOp op)
    refine ⟨first ++ rest, ?_⟩
    rw [State.hostOps, hrest, hfirst, List.foldl_append]

theorem hostTurn_events (s : State) :
    ∃ events : List TimeFreeEvent, s.hostTurn.timeFree = events.foldl State.timeFreeEvent s.timeFree := by
  cases h : s.schedule with
  | nil =>
    rw [hostTurn_of_nil h]
    exact ⟨[], rfl⟩
  | cons ops rest =>
    rw [hostTurn_of_cons h]
    exact hostOps_events (s.setSchedule rest) ops

/-- The time-free machine has nothing scheduled, so its step is CORE's part. -/
theorem step_timeFree (s : State) : step s.timeFree = coreStep s.timeFree := rfl

/-- Settles O18: the overlay `timeFree` on instructions and on CORE's part of a step, and HOST's turn as events. -/
theorem timedMachineRefinesTheTimeFreeOne : Obligations.TimedMachineRefinesTheTimeFreeOne := by
  have core : ∀ s : State, (∀ t, coreStep s = .next t → coreStep s.timeFree = .next t.timeFree) ∧
      ∀ f, coreStep s = .fault f → coreStep s.timeFree = .fault f := fun s =>
    Overlay.outcome_cases (coreStep_timeFree s)
  refine ⟨hostOp_timeFree, fun i s => Overlay.outcome_cases (exec_overlay (timeFree_respects i) s), core,
    fun s => ?step⟩
  obtain ⟨events, hevents⟩ := hostTurn_events s
  refine ⟨events, ?_⟩
  rw [← hevents, step_timeFree]
  exact core s.hostTurn

end Sys2Proof.Machine
end

section
/-! PROOFS. Memory and the stack over two accesses (20_memory.md, 42_index_mem.md, 40_flow.md): canonical memories
that read alike, a load and a fetch after a store, a return after a call. -/

namespace Sys2Proof.Machine

/-! ### Canonical memories -/

/-- A canonical memory that reads as nothing listed lists nothing: its first cell would read otherwise. -/
theorem eq_nil_of_read_unlisted {low : Nat} {m : Memory} (hm : Memory.wfFrom low m = true)
    (h : ∀ a, m.read a = Memory.unlisted a) : m = [] := by
  cases m with
  | nil => rfl
  | cons cell rest =>
    obtain ⟨b, u⟩ := cell
    obtain ⟨-, -, hu, -⟩ := Memory.wfFrom_listed.1 hm
    have hb := h b
    rw [Memory.read_listed, if_pos rfl] at hb
    exact absurd hb hu

/-- The first cells of two canonical memories that read alike are at the same address: the lower one would be unlisted
in the other memory. -/
theorem not_lt_of_read_eq {low b c : Nat} {u w : Byte} {m n : Memory}
    (hm : Memory.wfFrom low ((b, u) :: m) = true) (hn : Memory.wfFrom low ((c, w) :: n) = true)
    (h : Memory.read ((b, u) :: m) b = Memory.read ((c, w) :: n) b) : ¬b < c := by
  intro hlt
  obtain ⟨-, -, hu, -⟩ := Memory.wfFrom_listed.1 hm
  obtain ⟨-, hcell⟩ := Memory.wfFrom_listed.1 hn
  rw [Memory.read_listed, if_pos rfl, Memory.read_below (Memory.wfFrom_listed.2 ⟨le_rfl, hcell⟩) hlt] at h
  exact hu h

theorem eq_of_read_eq {low : Nat} {m n : Memory} (hm : Memory.wfFrom low m = true) (hn : Memory.wfFrom low n = true)
    (h : ∀ a, m.read a = n.read a) : m = n := by
  induction m generalizing low n with
  | nil => exact (eq_nil_of_read_unlisted hn fun a => (h a).symm).symm
  | cons cell m ih =>
    cases n with
    | nil => exact eq_nil_of_read_unlisted hm h
    | cons cell' n =>
      obtain ⟨b, u⟩ := cell
      obtain ⟨c, w⟩ := cell'
      obtain rfl : b = c := Nat.le_antisymm (not_lt.1 (not_lt_of_read_eq hn hm (h c).symm))
        (not_lt.1 (not_lt_of_read_eq hm hn (h b)))
      obtain ⟨-, -, -, hm'⟩ := Memory.wfFrom_listed.1 hm
      obtain ⟨-, -, -, hn'⟩ := Memory.wfFrom_listed.1 hn
      have hu := h b
      simp only [Memory.read_listed, if_true] at hu
      have hrest : ∀ a, Memory.read m a = Memory.read n a := by
        intro a
        by_cases hab : a = b
        · rw [hab, Memory.read_below hm' b.lt_succ_self, Memory.read_below hn' b.lt_succ_self]
        · have ha := h a
          rwa [Memory.read_listed, Memory.read_listed, if_neg hab, if_neg hab] at ha
      rw [hu, ih hm' hn' hrest]

/-- Settles O19: from the lower bound 0, by induction on the cells. -/
theorem canonicalMemoriesThatReadAlikeAreEqual : Obligations.CanonicalMemoriesThatReadAlikeAreEqual :=
  fun _ _ => eq_of_read_eq

/-! ### After a store -/

theorem exec_storeRegs_of_le {s : State} {x : Reg} (h : s.i.toNat + x.val ≤ 0xFFF) :
    exec (.storeRegs x) s = .next (s.setMem (s.mem.writeBytes s.i.toNat (s.regsUpTo x))) := by
  rw [exec_storeRegs, if_neg (not_lt.2 h)]

theorem exec_loadRegs_of_le {s : State} {x : Reg} (h : s.i.toNat + x.val ≤ 0xFFF) :
    exec (.loadRegs x) s = .next (s.setRegsFrom 0 (s.mem.readBytes s.i.toNat (x.val + 1))) := by
  rw [exec_loadRegs, if_neg (not_lt.2 h)]

/-- Settles O38: the load reads back, register by register, the bytes that the store wrote. -/
theorem storeThenLoadRestoresTheRegisters : Obligations.StoreThenLoadRestoresTheRegisters := by
  intro s x v hw hb
  refine ⟨_, _, exec_storeRegs_of_le hb, exec_loadRegs_of_le hb, fun k hk => ?restored, fun k hk => ?beyond, ?index⟩
  case restored =>
    rw [setRegsFrom_readBytes_reg, if_pos hk]
    exact read_storeRegs hw hb hk
  case beyond =>
    rw [setRegsFrom_readBytes_reg, if_neg (not_le.2 hk)]
    rfl
  case index => exact setRegsFrom_readBytes_sameBut _ x _ .index (by simp)

/-- Settles O39: the two bytes of the word are two of the stored registers. -/
theorem fetchSeesTheBytesJustStored : Obligations.FetchSeesTheBytesJustStored := by
  intro s x j k p hw hb hkj hk hp heven
  have hkx : k.val ≤ x.val := hk
  have hj : j ≤ x := Fin.le_def.2 (by omega)
  refine ⟨_, exec_storeRegs_of_le hb, fetch_eq_ok.2 ⟨?range, .inl heven, ?word⟩⟩
  case range =>
    rw [State.setPc_pc]
    omega
  case word =>
    rw [State.setPc_pc, State.setPc_mem, State.setMem_mem, hp, Memory.word, read_storeRegs hw hb hj, Nat.add_assoc,
      ← hkj, read_storeRegs hw hb hk]
    rfl

/-! ### After a call -/

theorem setPc_top (s : State) (q : Word) : (s.setPc q).top = s.top := rfl

/-- The top of the stack after a push is the pushed word (R80, R82). -/
theorem push_top {s : State} (p : Word) (h : s.sp < s.stack.length) : (s.push p).top = p :=
  top_eq (s := s.push p) (push_slot p h)

/-- Settles O31: the return takes the word that the call pushed, so that call and return are a push and a pop. -/
theorem returnAfterCallRestoresPcAndSp : Obligations.ReturnAfterCallRestoresPcAndSp := by
  intro s a p hlen hsp
  have hret : exec .ret (((s.push s.pc).setPc (jumpTarget a)).setPc p) = .next (s.push s.pc).pop := by
    rw [exec_ret_of_nonempty (Nat.succ_ne_zero s.sp), setPc_top, setPc_top, push_top s.pc (hlen ▸ hsp)]
    rfl
  refine ⟨_, _, exec_call_of_room a hsp.ne, hret, rfl, Nat.add_sub_cancel .., ?frame,
    fun k hk => push_otherSlot s.pc hk.ne⟩
  exact ((push_frame s s.pc).trans (pop_frame _)).mono (by simp)

end Sys2Proof.Machine
end

section
/-! PROOFS. `dxyn` (43_display.md rules R141 to R144): the pixels it inverts, its collision flag, its faults, and two
drawings at one place. -/

namespace Sys2Proof.Machine

/-! ### The state after a drawing -/

section AfterDraw
variable {ps : List (Nat × Nat)} (hn : ps.Nodup) (hon : OnScreen ps)
include hn hon

theorem afterDraw_pixel (s : State) (r c : Nat) :
    (s.afterDraw ps).disp.pixel r c = if (c, r) ∈ ps then !s.disp.pixel r c else s.disp.pixel r c :=
  composite_pixel ps s.disp false r c hn hon

theorem afterDraw_vf (s : State) :
    (s.afterDraw ps).reg 15 = flagByte (ps.any fun p => s.disp.pixel p.2 p.1) := by
  rw [State.afterDraw, State.drawn_reg, setReg_reg_same, composite_collision ps s.disp false hn hon, Bool.false_or]

/-- A pixel went off exactly when a position was a set pixel (R143). -/
theorem pixel_went_off (s : State) :
    (∃ r c, s.disp.pixel r c = true ∧ (s.afterDraw ps).disp.pixel r c = false) ↔
      (ps.any fun p => s.disp.pixel p.2 p.1) = true := by
  rw [List.any_eq_true]
  constructor
  · rintro ⟨r, c, hset, hclear⟩
    rw [afterDraw_pixel hn hon] at hclear
    split at hclear
    case isTrue hmem => exact ⟨(c, r), hmem, hset⟩
    case isFalse => cases hset.symm.trans hclear
  · rintro ⟨⟨c, r⟩, hmem, hset⟩
    refine ⟨r, c, hset, ?_⟩
    rw [afterDraw_pixel hn hon, if_pos hmem, hset, Bool.not_true]

/-- Drawing the same pixels twice leaves every pixel as it was (R143). -/
theorem afterDraw_afterDraw_pixel (s : State) (r c : Nat) :
    ((s.afterDraw ps).afterDraw ps).disp.pixel r c = s.disp.pixel r c := by
  rw [afterDraw_pixel hn hon, afterDraw_pixel hn hon]
  split
  · exact Bool.not_not _
  · rfl

end AfterDraw

theorem afterDraw_frame (s : State) (ps : List (Nat × Nat)) :
    Frame [.regs, .display, .displayChanged] s (s.afterDraw ps) :=
  (setReg_frame s 15 _).trans (drawn_frame _ _)

/-- Two displays with the same pixels are the same. -/
theorem display_ext {d e : Display} (h : ∀ r c, d.pixel r c = e.pixel r c) : d = e := by
  refine Vector.ext fun r hr => BitVec.eq_of_getLsbD_eq fun c _ => ?_
  have hpixel := h r c
  rwa [Display.pixel, Display.pixel, dif_pos hr, dif_pos hr] at hpixel

/-! ### A sprite in bounds -/

theorem exec_drw_of_fits {s : State} {x y : Reg} {n : Nibble} (hfits : n.toNat = 0 ∨ s.i.toNat + n.toNat ≤ 0x1000)
    (hon : OnScreen (s.spritePositions x y n)) :
    exec (.drw x y n) s = .next (s.afterDraw (s.spritePositions x y n)) := by
  rw [exec_drw, if_pos hfits, drawPixels_of_onScreen hon]

section InBounds
variable {s : State} {x y : Reg} {n : Nibble} (h : DrawInBounds s x y n)
include h

theorem onScreen_of_drawInBounds : OnScreen (s.spritePositions x y n) := by
  obtain ⟨-, hscreen⟩ := h
  intro p hp
  obtain ⟨c, r, hbit, rfl⟩ := mem_spritePositions.1 hp
  obtain ⟨hcolumn, hrow⟩ := hscreen c r hbit
  exact ⟨Nat.lt_succ_of_le hcolumn, Nat.lt_succ_of_le hrow⟩

theorem fits_of_drawInBounds : n.toNat = 0 ∨ s.i.toNat + n.toNat ≤ 0x1000 := by
  obtain ⟨hmem, -⟩ := h
  omega

theorem exec_drw_of_drawInBounds : exec (.drw x y n) s = .next (s.afterDraw (s.spritePositions x y n)) :=
  exec_drw_of_fits (fits_of_drawInBounds h) (onScreen_of_drawInBounds h)

end InBounds

/-- A drawing moves no sprite whose coordinates do not stand in `VF`: it reads the same bytes at the same place. -/
theorem afterDraw_spritePositions (s : State) {x y : Reg} (n : Nibble) (ps : List (Nat × Nat)) (hx : x ≠ 15)
    (hy : y ≠ 15) : (s.afterDraw ps).spritePositions x y n = s.spritePositions x y n := by
  have hvx : (s.afterDraw ps).reg x = s.reg x := afterDraw_sameBut s ps (.reg x) (by simp [hx])
  have hvy : (s.afterDraw ps).reg y = s.reg y := afterDraw_sameBut s ps (.reg y) (by simp [hy])
  rw [State.spritePositions, State.spritePositions, hvx, hvy]
  rfl

/-! ### The statements -/

/-- Settles O41: the positions of the sprite are those of its set bits. -/
theorem drawInvertsThePixelsOfTheSprite : Obligations.DrawInvertsThePixelsOfTheSprite := by
  intro s x y n h
  have hn := nodup_spritePositions s x y n
  have hon := onScreen_of_drawInBounds h
  refine ⟨_, exec_drw_of_drawInBounds h, fun c r hbit => ?inverted, fun R C hno => ?kept, rfl, fun j hj => ?vf,
    afterDraw_frame s _⟩
  case inverted => rw [afterDraw_pixel hn hon, if_pos (mem_spritePositions.2 ⟨c, r, hbit, rfl⟩)]
  case kept =>
    rw [afterDraw_pixel hn hon, if_neg]
    intro hmem
    obtain ⟨c, r, hbit, hp⟩ := mem_spritePositions.1 hmem
    obtain ⟨hC, hR⟩ := Prod.mk.inj hp
    exact hno ⟨c, r, hbit, hC, hR⟩
  case vf => exact afterDraw_sameBut s _ (.reg j) (by simpa using hj)

/-- Settles O42: the collision detector finds a set position exactly when a pixel went off. -/
theorem collisionFlagTellsAPixelWentOff : Obligations.CollisionFlagTellsAPixelWentOff := by
  intro s t x y n h
  obtain ⟨hon, rfl⟩ := exec_drw_next h
  have hn := nodup_spritePositions s x y n
  rw [pixel_went_off hn hon, afterDraw_vf hn hon, Bool.not_eq_true]
  exact ⟨fun hany => congrArg flagByte hany, fun hnone => congrArg flagByte hnone⟩

/-- Settles O43: the read of the bytes faults first, then the drawing, with one of the positions off the screen. -/
theorem drawFaultsOffMemoryThenOffScreen : Obligations.DrawFaultsOffMemoryThenOffScreen := by
  intro s x y n
  rw [exec_drw]
  refine ⟨fun hpos hoob => if_neg (by omega), fun hmem hoff => ?offScreen⟩
  have hnot : ¬OnScreen (s.spritePositions x y n) := by
    obtain ⟨c, r, hbit, hcr⟩ := hoff
    intro hon
    obtain ⟨hcolumn, hrow⟩ := hon _ (mem_spritePositions.2 ⟨c, r, hbit, rfl⟩)
    exact hcr.elim (Nat.lt_succ_iff.1 hcolumn).not_gt (Nat.lt_succ_iff.1 hrow).not_gt
  obtain ⟨p, hp, hpoff, hfault⟩ := drawPixels_of_not_onScreen (s := s) hnot
  obtain ⟨c, r, hbit, rfl⟩ := mem_spritePositions.1 hp
  exact ⟨c, r, hbit, hpoff, by rw [if_pos (by omega), hfault]⟩

/-- Settles O44: the second drawing inverts the same pixels back; on a clear screen it finds those of the first. -/
theorem drawingTwiceRestoresTheDisplay : Obligations.DrawingTwiceRestoresTheDisplay := by
  intro s x y n hx hy h
  have hn := nodup_spritePositions s x y n
  have hon := onScreen_of_drawInBounds h
  have hsame := afterDraw_spritePositions s n (s.spritePositions x y n) hx hy
  have hfits := fits_of_drawInBounds h
  have hsecond := exec_drw_of_fits (s := s.afterDraw (s.spritePositions x y n)) hfits (by rwa [hsame])
  rw [hsame] at hsecond
  refine ⟨_, _, exec_drw_of_drawInBounds h, hsecond, display_ext (afterDraw_afterDraw_pixel hn hon s),
    fun hclear => ⟨?firstFlag, fun ⟨c, r, hbit⟩ => ?secondFlag⟩⟩
  case firstFlag =>
    rw [afterDraw_vf hn hon, List.any_eq_false.2 fun p _ => by rw [hclear]; decide]
    rfl
  case secondFlag =>
    have hmem := mem_spritePositions (x := x) (y := y).2 ⟨c, r, hbit, rfl⟩
    rw [afterDraw_vf hn hon, List.any_eq_true.2 ⟨_, hmem, ?_⟩]
    · rfl
    · rw [afterDraw_pixel hn hon, if_pos hmem, hclear]
      rfl

end Sys2Proof.Machine
end

section
/-! PROOFS. `load` of an even image (70_reset_and_hazards.md rules R200, R203): what its memory reads, and the state
it makes. -/

namespace Sys2Proof.Machine

/-! ### The loaded memory -/

theorem font_wf (font : Vector Byte Config.fontSize) : (Memory.writeBytes [] Config.fontBase font.toList).wf = true :=
  Memory.writeBytes_wf _ _ rfl

theorem loadedMemory_wf (font : Vector Byte Config.fontSize) (image : List Byte) :
    (loadedMemory font image).wf = true :=
  Memory.writeBytes_wf _ _ (font_wf font)

/-- The font at 0 to 79, which no image reaches (R47, R200). -/
theorem loadedMemory_font (font : Vector Byte Config.fontSize) (image : List Byte) {k : Nat} (hk : k < 80) :
    (loadedMemory font image).read k = font[k] := by
  have hfont := Memory.read_writeBytes_inside Config.fontBase k font.toList (m := []) rfl
    (by rwa [Vector.length_toList]) (by rw [Vector.length_toList]; decide)
  rw [Nat.zero_add] at hfont
  rw [loadedMemory, Memory.read_writeBytes_outside _ _ _ _ (.inl (by rw [Config.programBase]; omega)), hfont,
    Vector.getElem_toList]

theorem loadedMemory_image (font : Vector Byte Config.fontSize) {image : List Byte} (hlen : image.length ≤ 3584)
    {k : Nat} (hk : k < image.length) : (loadedMemory font image).read (0x200 + k) = image[k] :=
  Memory.read_writeBytes_inside _ k image (font_wf font) hk (Nat.add_le_add_left hlen 0x200)

/-- Outside the font and the image memory reads 0x00 (R46). -/
theorem loadedMemory_rest (font : Vector Byte Config.fontSize) (image : List Byte) {a : Nat}
    (ha : 80 ≤ a ∧ a < 0x200 ∨ 0x200 + image.length ≤ a) : (loadedMemory font image).read a = 0 := by
  have hbeyond : 80 ≤ a := by omega
  rw [loadedMemory, Memory.read_writeBytes_outside _ _ _ _ (ha.imp_left And.right),
    Memory.read_writeBytes_outside _ _ _ _ (.inr (by rw [Vector.length_toList, Nat.zero_add]; exact hbeyond)),
    Memory.read_nil, Memory.unlisted, dif_neg (not_lt.2 hbeyond)]

/-- With the default font and no image memory reads as nothing listed, so nothing is listed (log entries 8, 9). -/
theorem loadedMemory_default : loadedMemory defaultFont [] = [] := by
  refine eq_nil_of_read_unlisted (loadedMemory_wf defaultFont []) fun a => ?_
  by_cases ha : a < 80
  · rw [loadedMemory_font defaultFont [] ha, Memory.unlisted, dif_pos ha]
  · rw [loadedMemory_rest defaultFont [] (by simp; omega), Memory.unlisted, dif_neg ha]

/-! ### The loaded state -/

theorem loadedState_default : loadedState defaultParams defaultFont clockOrigin [] = State.reset := by
  rw [loadedState, loadedMemory_default]
  rfl

theorem loadedState_inv (p : Params) (font : Vector Byte Config.fontSize) (now : Time) (image : List Byte) :
    (loadedState p font now image).Inv where
  memWf := loadedMemory_wf font image
  stackLength := List.length_replicate
  spBound := Nat.zero_le _
  pcBound := show (0x200 : Word).toNat ≤ 0x10FE by decide
  slotBound := fun k hk => absurd hk (Nat.not_lt_zero k)
  dtRefPast := le_rfl

theorem reset_reg (x : Reg) : State.reset.reg x = 0 := Vector.getElem_replicate x.isLt

theorem reset_pressed (k : Nat) : State.reset.keys.pressed k = false := by
  unfold Keys.pressed
  split
  · exact Vector.getElem_replicate _
  · rfl

theorem load_of_tooLarge (p : Params) (font : Vector Byte Config.fontSize) (now : Time) {image : List Byte}
    (heven : image.length % 2 = 0) (hlen : 3584 < image.length) : load p font now image = .error .programTooLarge := by
  rw [load_of_even p font now (by simp [imageEven, heven]), if_pos (by simpa [imageFits] using hlen)]

theorem load_of_fits (p : Params) (font : Vector Byte Config.fontSize) (now : Time) {image : List Byte}
    (heven : image.length % 2 = 0) (hlen : image.length ≤ 3584) :
    load p font now image = .ok (loadedState p font now image) := by
  rw [load_of_even p font now (by simp [imageEven, heven]), if_neg (by simpa [imageFits] using hlen)]

/-- Settles O51: the loaded memory by its three ranges, and the reset value of every other field. -/
theorem loadMakesTheResetState : Obligations.LoadMakesTheResetState := by
  refine ⟨?reset, fun p font now image heven => ⟨load_of_tooLarge p font now heven, fun hlen => ?loaded⟩⟩
  case reset => rw [load_of_fits _ _ _ rfl (Nat.zero_le _), loadedState_default]
  case loaded =>
    exact ⟨_, load_of_fits p font now heven hlen, fun k hk => loadedMemory_font font image hk,
      fun k hk => loadedMemory_image font hlen hk, fun a => loadedMemory_rest font image, reset_reg, rfl, rfl, rfl, rfl,
      rfl, rfl, rfl, rfl, pixel_clear, reset_pressed, rfl, rfl, rfl, rfl, loadedState_inv p font now image⟩

end Sys2Proof.Machine
end
